-- ==== Sys2Proof/Word.lean ====
section
/-! DEFINITION. The words and bytes of the core (00_scope.md R6, R8).

Addition of words is `BitVec` addition, which is `+32` of R8: the sum modulo 2^32.
Bitwise AND, OR, XOR and complement are `&&&`, `|||`, `^^^` and `~~~`. -/

namespace Sys2Proof

/-- A *word*: an unsigned 32-bit value (R6, R8). -/
abbrev Word := BitVec 32

/-- A *byte*: an unsigned 8-bit value (R8). -/
abbrev Byte := BitVec 8

/-- An operation code `op[6:0]` (30_encoding.md R81). -/
abbrev OpCode := BitVec 7

end Sys2Proof
end

