-- ==== Sys2Proof/Config.lean ====
section
/-! DEFINITION. The two parameters the spec leaves open, at their defaults (00_scope.md R7).

The model takes them as arguments: `MAX_N` is a field of the state that no step writes, so that a
statement about every state is about every instance; the number of cores is an argument of
`Cores.reset`. Nothing but the state after reset uses the defaults. The read-only tables are constants
of the model and stand in Machine/Tables.lean. -/

namespace Sys2Proof

/-- `MAX_N`, the largest message length in bytes an instance accepts: by default there is none, and every
`n ≥ 0` is admitted (R7, 92_eei_decisions.md D8; log entry 10). -/
def Config.defaultMaxN : Option Nat :=
  none

/-- `N_CORES`, the number of independent instances: 1 by default (R7, D12; log entry 10). -/
def Config.defaultCores : Nat :=
  1

end Sys2Proof
end

