-- ==== Sys2Proof/Syntax.lean ====
section
/-! DEFINITION. The operations of the core: one constructor per row of spec/opcode_table.json
(30_encoding.md R80, R84, R85), in code order. The host transactions START and READ are not
operations of the core and have no code (R80); they are `Transaction` in Machine/State.lean. -/

namespace Sys2Proof

/-- The 70 operation codes by name. `round<r>_<p>` is `ROUNDr p`, which is `OP i` with
`i = 16·(r − 1) + p + 1` (R89, R92). -/
inductive Instr where
  -- codes 0x00..0x0F: ROUND1 0 .. ROUND1 15 (42_round_engine.md R136)
  | round1_0 | round1_1 | round1_2 | round1_3 | round1_4 | round1_5 | round1_6 | round1_7
  | round1_8 | round1_9 | round1_10 | round1_11 | round1_12 | round1_13 | round1_14 | round1_15
  -- codes 0x10..0x1F: ROUND2 0 .. ROUND2 15 (42_round_engine.md R137)
  | round2_0 | round2_1 | round2_2 | round2_3 | round2_4 | round2_5 | round2_6 | round2_7
  | round2_8 | round2_9 | round2_10 | round2_11 | round2_12 | round2_13 | round2_14 | round2_15
  -- codes 0x20..0x2F: ROUND3 0 .. ROUND3 15 (42_round_engine.md R138)
  | round3_0 | round3_1 | round3_2 | round3_3 | round3_4 | round3_5 | round3_6 | round3_7
  | round3_8 | round3_9 | round3_10 | round3_11 | round3_12 | round3_13 | round3_14 | round3_15
  -- codes 0x30..0x3F: ROUND4 0 .. ROUND4 15 (42_round_engine.md R139)
  | round4_0 | round4_1 | round4_2 | round4_3 | round4_4 | round4_5 | round4_6 | round4_7
  | round4_8 | round4_9 | round4_10 | round4_11 | round4_12 | round4_13 | round4_14 | round4_15
  -- codes 0x40..0x45: the sequencing operations (R161, R100, R120, R160, R163, R170)
  | init | pad | decode | snap | fold | encode
deriving DecidableEq, Repr

end Sys2Proof
end

