-- ==== Sys2Proof/WellFormed.lean ====
section
/-! DEFINITION. Which codes, instructions and listing lines are well formed.

An instruction has no operand (30_encoding.md R83), so no instruction term is ill formed; what can be
ill formed is a code (R86) and a line of the listing syntax (R89), whose operand has a range. -/

namespace Sys2Proof

/-- A code that names an operation: 0x00..0x45 (R81, R84); 0x46..0x7F are reserved (R86). -/
def codeDefined (c : OpCode) : Bool :=
  decide (c.toNat < 0x46)

/-- Every instruction is well formed: none has a field that could be out of range (R83). -/
def Instr.wf (_ : Instr) : Bool :=
  true

/-- The words that may stand as `mnemonic` in a listing line (R89). -/
inductive Mnemonic where
  | init | pad | decode | snap | fold | encode
  | round1 | round2 | round3 | round4 | op
  | start | read
  | rounds | compress | hash
deriving DecidableEq, Repr

/-- One line of a listing without its comment: `[ code ] mnemonic [ operand ]` (R89). -/
structure Line where
  code     : Option OpCode
  mnemonic : Mnemonic
  operand  : Option Nat
deriving DecidableEq, Repr

/-- Whether the operand is one the mnemonic takes: `ROUNDr p` takes `p` in 0..15, `OP i` takes `i`
in 1..64, `START n` any `n`, the others none (R89). -/
def Line.operandWf (l : Line) : Bool :=
  match l.mnemonic, l.operand with
  | .round1, some p | .round2, some p | .round3, some p | .round4, some p => decide (p ≤ 15)
  | .op, some i => decide (1 ≤ i ∧ i ≤ 64)
  | .start, some _ => true
  | .round1, none | .round2, none | .round3, none | .round4, none | .op, none | .start, none => false
  | _, none => true
  | _, some _ => false

/-- Whether the mnemonic may carry a code: host transactions and pseudo-operations have none (R89). -/
def Mnemonic.hasCode : Mnemonic → Bool
  | .start | .read | .rounds | .compress | .hash => false
  | _ => true

/-- A line is well formed: its operand fits its mnemonic, and a code stands only where one may and
names an operation (R86, R89). That the code is the mnemonic's own is `Line.codeAgrees` in
Machine/Listing.lean, since it needs the encoder. -/
def Line.wf (l : Line) : Bool :=
  l.operandWf &&
    match l.code with
    | none => true
    | some c => l.mnemonic.hasCode && codeDefined c

end Sys2Proof
end

