-- ==== Sys2Proof/Decode.lean ====
section
/-! DEFINITION. The operation codes of 30_encoding.md: a total decoder, and after it the encoder.

A code is 7 bits, `op[6:0]` (R81). Where code bytes are handled, a code stands in the low seven bits of
one byte whose bit 7 is 0. DESIGN CHOICE (log entry 7): safe, the core fetches no instruction words. -/

namespace Sys2Proof

/-- Why a byte or a code names no operation. -/
inductive DecodeError where
  /-- There is no byte to decode. -/
  | empty
  /-- Bit 7 of the byte is set: it holds no 7-bit code. -/
  | notACode (b : Byte)
  /-- The code is one of 0x46..0x7F (R86). -/
  | reserved (c : OpCode)
deriving DecidableEq, Repr

/-! ### The fields of a code (R81) -/

/-- `op[6]`: 0 for a round operation, 1 for a sequencing operation. -/
def opClass (c : OpCode) : Bool :=
  c.getLsbD 6

/-- `rr = op[5:4]`: round minus one. -/
def opRr (c : OpCode) : BitVec 2 :=
  c.extractLsb' 4 2

/-- `p = op[3:0]`: position in the round. -/
def opP (c : OpCode) : BitVec 4 :=
  c.extractLsb' 0 4

/-- `sub = op[5:0]` of a format-C code. -/
def opSub (c : OpCode) : BitVec 6 :=
  c.extractLsb' 0 6

/-! ### Decoding -/

/-- `ROUND1 p` for `p = 0..15` (R84). -/
def round1Ops : Vector Instr 16 :=
  #v[.round1_0, .round1_1, .round1_2, .round1_3, .round1_4, .round1_5, .round1_6, .round1_7,
     .round1_8, .round1_9, .round1_10, .round1_11, .round1_12, .round1_13, .round1_14, .round1_15]

/-- `ROUND2 p` for `p = 0..15` (R84). -/
def round2Ops : Vector Instr 16 :=
  #v[.round2_0, .round2_1, .round2_2, .round2_3, .round2_4, .round2_5, .round2_6, .round2_7,
     .round2_8, .round2_9, .round2_10, .round2_11, .round2_12, .round2_13, .round2_14, .round2_15]

/-- `ROUND3 p` for `p = 0..15` (R84). -/
def round3Ops : Vector Instr 16 :=
  #v[.round3_0, .round3_1, .round3_2, .round3_3, .round3_4, .round3_5, .round3_6, .round3_7,
     .round3_8, .round3_9, .round3_10, .round3_11, .round3_12, .round3_13, .round3_14, .round3_15]

/-- `ROUND4 p` for `p = 0..15` (R84). -/
def round4Ops : Vector Instr 16 :=
  #v[.round4_0, .round4_1, .round4_2, .round4_3, .round4_4, .round4_5, .round4_6, .round4_7,
     .round4_8, .round4_9, .round4_10, .round4_11, .round4_12, .round4_13, .round4_14, .round4_15]

/-- The four rounds by `rr` (R81). -/
def roundOps : Vector (Vector Instr 16) 4 :=
  #v[round1Ops, round2Ops, round3Ops, round4Ops]

/-- The round operation of a format-S code: `ROUNDr p` with `r = rr + 1` (R81, R82). -/
def roundInstr (rr : BitVec 2) (p : BitVec 4) : Instr :=
  (roundOps[rr.toNat]'rr.isLt)[p.toNat]'p.isLt

/-- The sequencing operation of a format-C code; `sub = 6..63` are reserved (R81, R86). -/
def sequencingInstr (sub : BitVec 6) : Option Instr :=
  match sub.toNat with
  | 0 => some .init
  | 1 => some .pad
  | 2 => some .decode
  | 3 => some .snap
  | 4 => some .fold
  | 5 => some .encode
  | _ => none

/-- The operation a 7-bit code names; a reserved code is refused by name (R81, R86). -/
def decodeCode (c : OpCode) : Except DecodeError Instr :=
  if opClass c then
    match sequencingInstr (opSub c) with
    | some i => .ok i
    | none => .error (.reserved c)
  else
    .ok (roundInstr (opRr c) (opP c))

/-- The operation at the head of a list of code bytes, with the bytes that follow it. Total on any
bytes; there is one length, one code a byte (R81, R87). -/
def decode : List Byte → Except DecodeError (Instr × List Byte)
  | [] => .error .empty
  | b :: rest =>
    if b.getLsbD 7 then
      .error (.notACode b)
    else
      match decodeCode (b.setWidth 7) with
      | .ok i => .ok (i, rest)
      | .error e => .error e

/-! ### Encoding -/

/-- The fields of a code by format (R81). -/
inductive CodeFields where
  | formatS (rr : BitVec 2) (p : BitVec 4)
  | formatC (sub : BitVec 6)
deriving DecidableEq, Repr

/-- The fields of each operation's code (R81, R84). -/
def Instr.fields : Instr → CodeFields
  | .round1_0 => .formatS 0 0
  | .round1_1 => .formatS 0 1
  | .round1_2 => .formatS 0 2
  | .round1_3 => .formatS 0 3
  | .round1_4 => .formatS 0 4
  | .round1_5 => .formatS 0 5
  | .round1_6 => .formatS 0 6
  | .round1_7 => .formatS 0 7
  | .round1_8 => .formatS 0 8
  | .round1_9 => .formatS 0 9
  | .round1_10 => .formatS 0 10
  | .round1_11 => .formatS 0 11
  | .round1_12 => .formatS 0 12
  | .round1_13 => .formatS 0 13
  | .round1_14 => .formatS 0 14
  | .round1_15 => .formatS 0 15
  | .round2_0 => .formatS 1 0
  | .round2_1 => .formatS 1 1
  | .round2_2 => .formatS 1 2
  | .round2_3 => .formatS 1 3
  | .round2_4 => .formatS 1 4
  | .round2_5 => .formatS 1 5
  | .round2_6 => .formatS 1 6
  | .round2_7 => .formatS 1 7
  | .round2_8 => .formatS 1 8
  | .round2_9 => .formatS 1 9
  | .round2_10 => .formatS 1 10
  | .round2_11 => .formatS 1 11
  | .round2_12 => .formatS 1 12
  | .round2_13 => .formatS 1 13
  | .round2_14 => .formatS 1 14
  | .round2_15 => .formatS 1 15
  | .round3_0 => .formatS 2 0
  | .round3_1 => .formatS 2 1
  | .round3_2 => .formatS 2 2
  | .round3_3 => .formatS 2 3
  | .round3_4 => .formatS 2 4
  | .round3_5 => .formatS 2 5
  | .round3_6 => .formatS 2 6
  | .round3_7 => .formatS 2 7
  | .round3_8 => .formatS 2 8
  | .round3_9 => .formatS 2 9
  | .round3_10 => .formatS 2 10
  | .round3_11 => .formatS 2 11
  | .round3_12 => .formatS 2 12
  | .round3_13 => .formatS 2 13
  | .round3_14 => .formatS 2 14
  | .round3_15 => .formatS 2 15
  | .round4_0 => .formatS 3 0
  | .round4_1 => .formatS 3 1
  | .round4_2 => .formatS 3 2
  | .round4_3 => .formatS 3 3
  | .round4_4 => .formatS 3 4
  | .round4_5 => .formatS 3 5
  | .round4_6 => .formatS 3 6
  | .round4_7 => .formatS 3 7
  | .round4_8 => .formatS 3 8
  | .round4_9 => .formatS 3 9
  | .round4_10 => .formatS 3 10
  | .round4_11 => .formatS 3 11
  | .round4_12 => .formatS 3 12
  | .round4_13 => .formatS 3 13
  | .round4_14 => .formatS 3 14
  | .round4_15 => .formatS 3 15
  | .init => .formatC 0
  | .pad => .formatC 1
  | .decode => .formatC 2
  | .snap => .formatC 3
  | .fold => .formatC 4
  | .encode => .formatC 5

/-- The code the fields make up: `op[6]` is the class, then `rr` and `p`, or `sub` (R81). -/
def CodeFields.assemble : CodeFields → OpCode
  | .formatS rr p => (0#1 ++ rr ++ p : BitVec 7)
  | .formatC sub => (1#1 ++ sub : BitVec 7)

/-- The 7-bit code of an operation (R81, R92). -/
def Instr.code (i : Instr) : OpCode :=
  i.fields.assemble

/-- The code byte of an operation. -/
def encode (i : Instr) : List Byte :=
  [i.code.setWidth 8]

/-! ### Words as the opcode table numbers their bits -/

/-- The bytes of a number of `k` bytes, bits 7..0 first. -/
def wordBytes : Nat → Nat → List Byte
  | 0, _ => []
  | k + 1, w => BitVec.ofNat 8 w :: wordBytes k (w / 256)

/-- What the decoder reads from an instruction whose bits are `w`, bit 0 the least significant bit of
the first byte. The table gives a row `nbits` bits; every bit above them is 0. -/
def decodeTableWord (nbits w : Nat) : Option Instr :=
  match decode (wordBytes (max 1 ((nbits + 7) / 8)) (w % 2 ^ nbits)) with
  | .ok (i, _) => some i
  | .error _ => none

end Sys2Proof
end

