-- ==== Sys2Proof/Machine/State.lean ====
section
/-! DEFINITION. The state of one core instance (10_state.md), the reasons a step can stop, and the
state after reset. -/

namespace Sys2Proof.Machine

/-- The phase register `PH` (R26). -/
inductive Phase where
  | idle | sInit | sPad | sDecode | sSnap | sRound | sFold | sEncode | done
deriving DecidableEq, Repr

/-- The three byte-addressed data spaces, each addressed from 0 (R30). -/
inductive Space where
  | msg | pb | dg
deriving DecidableEq, Repr

/-- The contents of a space: the bytes it holds, by address. An address that is not listed holds no
value (R36; log entry 2). Canonical form: addresses strictly rising (`Memory.wf`). -/
abbrev Memory := List Host.Cell

/-- A host transaction (45_sequencer_and_host.md): `START(m, n)` with `n` the length of `m` (R180), or
`READ` (R182). -/
inductive Transaction where
  | start (m : List Byte)
  | read
deriving DecidableEq, Repr

/-- The state of one instance: the tuple of R40, and three fields of the model's own: the instance's
parameter `MAX_N` (log entry 10) and the host's side of the interface (log entry 5). The tables are constants, not state (R31). -/
structure State where
  /-- `PH`, the phase (R26). -/
  ph : Phase
  /-- `J`, the chunk index (R26). -/
  j : Nat
  /-- `I − 1`, the operation index less one (R26: "A 6-bit register holding `I − 1` suffices").
  DEDUCED (log entry 11): safe. -/
  idx : BitVec 6
  /-- `N`, the message length in bytes (R27). -/
  n : Nat
  /-- `L`, the padded length in bytes (R27). -/
  l : Nat
  /-- `H[0..3]`, the HashState A, B, C, D (R21). -/
  h : Vector Word 4
  /-- `W[0..3]`, the working copy a, b, c, d (R22). -/
  w : Vector Word 4
  /-- `X[0..15]`, the current chunk (R25). -/
  x : Vector Word 16
  /-- `MSG[0..N−1]`, the Message (R30). -/
  msg : Memory
  /-- `PB[0..L−1]`, the PaddedBuffer (R30). -/
  pb : Memory
  /-- `DG[0..15]`, the Digest (R30). -/
  dg : Memory
  /-- The model's own: the parameter `MAX_N` of this instance, `none` where there is no bound; no step
  writes it (R7, D8; log entry 10). -/
  maxN : Option Nat
  /-- The model's own: the host's transactions still to come, the next one first (R40; log entry 5). -/
  pending : List Transaction
  /-- The model's own: what each READ has returned, oldest first (R182; log entry 5). -/
  delivered : List (List Byte)
deriving DecidableEq, Repr

/-- The register `I`, 1..64 (R26). -/
def State.opIndex (s : State) : Nat :=
  s.idx.toNat + 1

/-- Modelling faults. The core itself raises no exception (60_exceptions.md R200), and no run from reset
reaches one of these (70 R222). -/
inductive Fault where
  /-- PAD, DECODE or READ reads a byte that nothing has written: "a read of one before it is written is
  a modelling fault" (10_state.md R36, U6). Safe: the model stops where an implementation goes on. -/
  | unwritten (sp : Space) (a : Nat)
  /-- PAD, DECODE or READ reads an address its space does not have: "no behaviour defined for one"
  (20_memory.md R57). Safe: the model stops where an implementation goes on. -/
  | outOfRange (sp : Space) (a : Nat)
deriving DecidableEq, Repr

/-- Why the model has no step. -/
inductive Refusal where
  /-- Raised by an arm of `exec` for an instruction that has no meaning yet. Safe. -/
  | notModelled (mnemonic : String)
  /-- Raised by `stepCode` on a reserved code 0x46..0x7F: "a model's machine refuses to step on one (a
  refusal, not a fault of the hardware)" (30_encoding.md R86). Safe. -/
  | reservedCode (c : OpCode)
deriving DecidableEq, Repr

/-- What a step answers. -/
abbrev Result := Host.Outcome State Fault Refusal

/-- The machine right after reset: `PH = IDLE` (R35, R220), and every byte of `MSG`, `PB`, `DG` without
a value (R36). The spec gives the registers no value; the model names zero for each, and `I − 1 = 0`
for `I`. DESIGN CHOICE (log entry 1): unsafe. `MAX_N` is at its default (log entry 10) and the host has
no transaction to come (log entry 5). -/
def State.reset : State where
  ph := .idle
  j := 0
  idx := 0
  n := 0
  l := 0
  h := Vector.replicate 4 0
  w := Vector.replicate 4 0
  x := Vector.replicate 16 0
  msg := []
  pb := []
  dg := []
  maxN := Config.defaultMaxN
  pending := []
  delivered := []

end Sys2Proof.Machine
end

