-- ==== Sys2Proof/Machine/Flags.lean ====
section
/-! DEFINITION. The core has no flags, condition codes or predicates (10_state.md R24): no operation
computes one, and no operation has a data-dependent decision. What stands in their place is the one
status a host can observe, whether the phase is idle, busy or done (45 R183). -/

namespace Sys2Proof.Machine

/-- The status a host can observe (R183). -/
inductive HostStatus where
  | idle | busy | done
deriving DecidableEq, Repr

/-- The observable status of a phase: `IDLE`, any `S_x`, or `DONE` (R183). -/
def Phase.status : Phase → HostStatus
  | .idle => .idle
  | .done => .done
  | .sInit | .sPad | .sDecode | .sSnap | .sRound | .sFold | .sEncode => .busy

/-- In a busy phase the core has exactly one enabled operation; in `IDLE` and `DONE` it waits for the
host (R26, R40). -/
def Phase.busy (p : Phase) : Bool :=
  decide (p.status = .busy)

end Sys2Proof.Machine
end

