-- ==== Sys2Proof/Machine/Tables.lean ====
section
/-! DEFINITION. The read-only tables (10_state.md R31): constants of the model, the same at every
moment, reset included (R37). The literals of `T`, `KSEL`, `SHIFT` are those of 42_round_engine.md
R146 to R148, which the spec supplies from RFC 1321 (PRESUMED by the spec, log entry 13). -/

namespace Sys2Proof.Machine

/-- `T[1..16]` (R146). -/
def tRound1 : Vector Word 16 :=
  #v[0xD76AA478, 0xE8C7B756, 0x242070DB, 0xC1BDCEEE,
     0xF57C0FAF, 0x4787C62A, 0xA8304613, 0xFD469501,
     0x698098D8, 0x8B44F7AF, 0xFFFF5BB1, 0x895CD7BE,
     0x6B901122, 0xFD987193, 0xA679438E, 0x49B40821]

/-- `T[17..32]` (R146). -/
def tRound2 : Vector Word 16 :=
  #v[0xF61E2562, 0xC040B340, 0x265E5A51, 0xE9B6C7AA,
     0xD62F105D, 0x02441453, 0xD8A1E681, 0xE7D3FBC8,
     0x21E1CDE6, 0xC33707D6, 0xF4D50D87, 0x455A14ED,
     0xA9E3E905, 0xFCEFA3F8, 0x676F02D9, 0x8D2A4C8A]

/-- `T[33..48]` (R146). -/
def tRound3 : Vector Word 16 :=
  #v[0xFFFA3942, 0x8771F681, 0x6D9D6122, 0xFDE5380C,
     0xA4BEEA44, 0x4BDECFA9, 0xF6BB4B60, 0xBEBFBC70,
     0x289B7EC6, 0xEAA127FA, 0xD4EF3085, 0x04881D05,
     0xD9D4D039, 0xE6DB99E5, 0x1FA27CF8, 0xC4AC5665]

/-- `T[49..64]` (R146). -/
def tRound4 : Vector Word 16 :=
  #v[0xF4292244, 0x432AFF97, 0xAB9423A7, 0xFC93A039,
     0x655B59C3, 0x8F0CCC92, 0xFFEFF47D, 0x85845DD1,
     0x6FA87E4F, 0xFE2CE6E0, 0xA3014314, 0x4E0811A1,
     0xF7537E82, 0xBD3AF235, 0x2AD7D2BB, 0xEB86D391]

/-- The round constants of one round (R146). -/
def tRounds : Vector (Vector Word 16) 4 :=
  #v[tRound1, tRound2, tRound3, tRound4]

/-- `T[i]` for the operation index `i = c + 1`, with `c` the 6-bit code of the operation: entry
`op[3:0]` of round `op[5:4] + 1` (R144, R146). -/
def constT (c : BitVec 6) : Word :=
  (tRounds[(c.extractLsb' 4 2).toNat]'(c.extractLsb' 4 2).isLt)[(c.extractLsb' 0 4).toNat]'(c.extractLsb' 0 4).isLt

/-- The word-selection table `KSEL[1..4][0..15]`, rows by round minus one (R147). -/
def kselTable : Vector (Vector (Fin 16) 16) 4 :=
  #v[#v[0, 1, 2, 3, 4, 5, 6, 7, 8, 9, 10, 11, 12, 13, 14, 15],
     #v[1, 6, 11, 0, 5, 10, 15, 4, 9, 14, 3, 8, 13, 2, 7, 12],
     #v[5, 8, 11, 14, 1, 4, 7, 10, 13, 0, 3, 6, 9, 12, 15, 2],
     #v[0, 7, 14, 5, 12, 3, 10, 1, 8, 15, 6, 13, 4, 11, 2, 9]]

/-- `KSEL[rr + 1][p]`: which chunk word an operation reads (R144, R147). -/
def ksel (rr : BitVec 2) (p : BitVec 4) : Fin 16 :=
  (kselTable[rr.toNat]'rr.isLt)[p.toNat]'p.isLt

/-- The shift table `SHIFT[1..4][0..3]`, rows by round minus one (R148). -/
def shiftTable : Vector (Vector (Fin 32) 4) 4 :=
  #v[#v[7, 12, 17, 22], #v[5, 9, 14, 20], #v[4, 11, 16, 23], #v[6, 10, 15, 21]]

/-- `SHIFT[rr + 1][q]`: the rotate amount of an operation (R144, R148). -/
def shiftAmount (rr : BitVec 2) (q : BitVec 2) : Fin 32 :=
  (shiftTable[rr.toNat]'rr.isLt)[q.toNat]'q.isLt

/-- Which of `W[0..3]` stands in each role of a round operation (R23, R145). -/
structure Roles where
  target : Fin 4
  b : Fin 4
  c : Fin 4
  d : Fin 4
deriving DecidableEq, Repr

/-- The role pattern `ROLE[0..3]`: "(A,B,C,D)→(D,A,B,C)→(C,D,A,B)→(B,C,D,A)" (R145). -/
def roleTable : Vector Roles 4 :=
  #v[⟨0, 1, 2, 3⟩, ⟨3, 0, 1, 2⟩, ⟨2, 3, 0, 1⟩, ⟨1, 2, 3, 0⟩]

/-- `ROLE[q]` with `q = (i − 1) mod 4` (R144, R145). -/
def roles (q : BitVec 2) : Roles :=
  roleTable[q.toNat]'q.isLt

/-- `IV[0..3]`: the four initial constants, in the order A, B, C, D (43 R161). -/
def iv : Vector Word 4 :=
  #v[0x67452301, 0xEFCDAB89, 0x98BADCFE, 0x10325476]

end Sys2Proof.Machine
end

