-- ==== Sys2Proof/Machine/Operands.lean ====
section
/-! DEFINITION. The arithmetic of the rules (00_scope.md R8), the four round functions
(42_round_engine.md R131 to R134), and the operands a round operation looks up from its 6-bit code
(30_encoding.md R83, 42 R144). -/

namespace Sys2Proof.Machine

/-! ### Notation primitives (R8) -/

/-- `rotl32(v, s)`: bit `b` of `v` moves to bit `(b + s) mod 32`, for `0 < s < 32` (R8, R135 step 5). No
rule reaches another `s`; for those the formula stands as it is (U2).
DESIGN CHOICE (log entry 9): safe, never evaluated. -/
def rotl32 (v : Word) (s : Nat) : Word :=
  (v <<< s) ||| (v >>> (32 - s))

/-- `le32(b0, b1, b2, b3)`: a word from four bytes, first byte least significant (R8, R50). -/
def le32 (b0 b1 b2 b3 : Byte) : Word :=
  b3 ++ b2 ++ b1 ++ b0

/-- `byte_k(v)`: byte `k` of a word or of a 64-bit value, `k = 0` least significant (R8). -/
def byteOf {m : Nat} (k : Nat) (v : BitVec m) : Byte :=
  v.extractLsb' (8 * k) 8

/-- The four bytes of a word, lowest address first (R8, R50). -/
def bytesOfWord (v : Word) : List Byte :=
  [byteOf 0 v, byteOf 1 v, byteOf 2 v, byteOf 3 v]

/-! ### The four nonlinear functions -/

/-- Round 1: `F(x, y, z) = (x & y) | (~x & z)` (R131). -/
def funF (x y z : Word) : Word :=
  (x &&& y) ||| (~~~x &&& z)

/-- Round 2: `G(x, y, z) = (x & z) | (y & ~z)` (R132). -/
def funG (x y z : Word) : Word :=
  (x &&& z) ||| (y &&& ~~~z)

/-- Round 3: `H(x, y, z) = x ^ y ^ z` (R133). -/
def funH (x y z : Word) : Word :=
  x ^^^ y ^^^ z

/-- Round 4: `I(x, y, z) = y ^ (x | ~z)` (R134). -/
def funI (x y z : Word) : Word :=
  y ^^^ (x ||| ~~~z)

/-- The function of round `rr + 1`: F, G, H, I in that order (R83, R135). -/
def roundFun (rr : BitVec 2) : Word → Word → Word → Word :=
  match rr.toNat with
  | 0 => funF
  | 1 => funG
  | 2 => funH
  | _ => funI

/-! ### The index fields of a round operation's 6-bit code `i − 1` (R81, R82, R135) -/

/-- `rr = op[5:4]`, round minus one: `ceil(i/16) − 1` (R82). -/
def roundOf (c : BitVec 6) : BitVec 2 :=
  c.extractLsb' 4 2

/-- `p = op[3:0]`: `(i − 1) mod 16` (R82). -/
def posOf (c : BitVec 6) : BitVec 4 :=
  c.extractLsb' 0 4

/-- `q = op[1:0]`: `(i − 1) mod 4` (R82). -/
def quarterOf (c : BitVec 6) : BitVec 2 :=
  c.extractLsb' 0 2

/-! ### The step common to the 64 round operations (R135) -/

/-- `u = W[rt] +32 f +32 X[k] +32 T[i]` (R135, source step 4). -/
def roundSum (c : BitVec 6) (w : Vector Word 4) (x : Vector Word 16) : Word :=
  let r := roles (quarterOf c)
  w[r.target] + roundFun (roundOf c) w[r.b] w[r.c] w[r.d] + x[ksel (roundOf c) (posOf c)] + constT c

/-- The working registers after round operation `i = c + 1`: `W[rt] <- rotl32(u, s) +32 W[rb]`, every
right-hand side taken before the operation, the other three registers unchanged (R135, R228). -/
def roundWords (c : BitVec 6) (w : Vector Word 4) (x : Vector Word 16) : Vector Word 4 :=
  let r := roles (quarterOf c)
  w.set r.target (rotl32 (roundSum c w x) (shiftAmount (roundOf c) (quarterOf c)) + w[r.b])

/-! ### Component-wise operations on the HashState -/

/-- `H[m] +32 W[m]` for `m = 0..3` (43 R163). -/
def addWords (h w : Vector Word 4) : Vector Word 4 :=
  #v[h[0] + w[0], h[1] + w[1], h[2] + w[2], h[3] + w[3]]

/-- The sixteen bytes of a HashState: each word little-endian, in the order A, B, C, D (44 R170, R171). -/
def digestBytes (h : Vector Word 4) : List Byte :=
  bytesOfWord h[0] ++ bytesOfWord h[1] ++ bytesOfWord h[2] ++ bytesOfWord h[3]

/-! ### The padding of a message (40_padder.md) -/

/-- `L = 64 · (floor((n + 8) / 64) + 1)` (R100, R101). -/
def padLen (n : Nat) : Nat :=
  64 * ((n + 8) / 64 + 1)

/-- `NCH = floor((n + 8) / 64) + 1`, the number of chunks (R101, R190). -/
def numChunks (n : Nat) : Nat :=
  (n + 8) / 64 + 1

/-- The length field `(8 · n) mod 2^64` (R103). -/
def lengthField (n : Nat) : BitVec 64 :=
  BitVec.ofNat 64 (8 * n)

/-- The eight bytes of the length field, least significant first (R100, R103). -/
def lengthBytes (n : Nat) : List Byte :=
  (List.range 8).map fun k => byteOf k (lengthField n)

/-- The padded message: the bytes, 0x80, `L − n − 9` zeros, the length field (R100). -/
def padBytes (m : List Byte) : List Byte :=
  m ++ 0x80 :: (List.replicate (padLen m.length - m.length - 9) 0 ++ lengthBytes m.length)

end Sys2Proof.Machine
end

