-- ==== Sys2Proof/Machine/Ops.lean ====
section
/-! DEFINITION. The named operations over registers and memory (00_scope.md R8, 20_memory.md).

The core has no exception, no trap and no trap return (60_exceptions.md R200, R204, R205), so there is
no operation here that takes one. -/

namespace Sys2Proof.Machine

/-! ### Writing one register or space -/

/-- Writes `PH`. -/
def State.setPh (s : State) (v : Phase) : State :=
  { s with ph := v }

/-- Writes `J`. -/
def State.setJ (s : State) (v : Nat) : State :=
  { s with j := v }

/-- Writes `I − 1`. -/
def State.setIdx (s : State) (v : BitVec 6) : State :=
  { s with idx := v }

/-- Writes `N`. -/
def State.setN (s : State) (v : Nat) : State :=
  { s with n := v }

/-- Writes `L`. -/
def State.setL (s : State) (v : Nat) : State :=
  { s with l := v }

/-- Writes `H[0..3]`. -/
def State.setH (s : State) (v : Vector Word 4) : State :=
  { s with h := v }

/-- Writes `W[0..3]`. -/
def State.setW (s : State) (v : Vector Word 4) : State :=
  { s with w := v }

/-- Writes `X[0..15]`. -/
def State.setX (s : State) (v : Vector Word 16) : State :=
  { s with x := v }

/-- Writes all of `MSG`. -/
def State.setMsg (s : State) (v : Memory) : State :=
  { s with msg := v }

/-- Writes all of `PB`. -/
def State.setPb (s : State) (v : Memory) : State :=
  { s with pb := v }

/-- Writes all of `DG`. -/
def State.setDg (s : State) (v : Memory) : State :=
  { s with dg := v }

/-- Writes the instance's parameter `MAX_N`; no step does. -/
def State.setMaxN (s : State) (v : Option Nat) : State :=
  { s with maxN := v }

/-- Writes the host's transactions to come. -/
def State.setPending (s : State) (v : List Transaction) : State :=
  { s with pending := v }

/-- Writes the record of what READ has returned. -/
def State.setDelivered (s : State) (v : List (List Byte)) : State :=
  { s with delivered := v }

/-! ### Memories as lists of cells -/

/-- The byte at an address, if one is listed. -/
def Memory.get : Memory → Nat → Option Byte
  | [], _ => none
  | (b, v) :: rest, a => if a = b then some v else Memory.get rest a

/-- Writes one byte, keeping the addresses strictly rising. -/
def Memory.set : Memory → Nat → Byte → Memory
  | [], a, v => [(a, v)]
  | (b, u) :: rest, a, v =>
    if a < b then (a, v) :: (b, u) :: rest
    else if a = b then (a, v) :: rest
    else (b, u) :: Memory.set rest a v

/-- Writes bytes at consecutive addresses, lowest address first (R8 `MemWrite`). -/
def Memory.setBytes : Memory → Nat → List Byte → Memory
  | m, _, [] => m
  | m, a, v :: vs => Memory.setBytes (Memory.set m a v) (a + 1) vs

/-- A space that holds exactly the given bytes from the given address on. -/
def Memory.ofBytes : Nat → List Byte → Memory
  | _, [] => []
  | a, v :: vs => (a, v) :: Memory.ofBytes (a + 1) vs

/-- Every listed address is at least `lo`, and the addresses rise strictly. -/
def Memory.risingFrom : Nat → Memory → Bool
  | _, [] => true
  | lo, (a, _) :: rest => decide (lo ≤ a) && Memory.risingFrom (a + 1) rest

/-- The canonical form of a memory: addresses strictly rising. No entry can equal what an unlisted
address reads as, since an unlisted address holds no value (log entry 2). -/
def Memory.wf (m : Memory) : Bool :=
  Memory.risingFrom 0 m

/-! ### Reading a space (R8 `MemRead`) -/

/-- The size of a space in bytes: `MSG` has `N`, `PB` has `L`, `DG` has 16 (10_state.md R30). -/
def State.size (s : State) : Space → Nat
  | .msg => s.n
  | .pb => s.l
  | .dg => 16

/-- The cells of a space. -/
def State.cells (s : State) : Space → Memory
  | .msg => s.msg
  | .pb => s.pb
  | .dg => s.dg

/-- `MemRead(S, a, 1)`: the byte at an address of a space. An address outside the space has no
behaviour (R57) and a byte that nothing has written has no value (R36): both are modelling faults
(log entries 2 and 3). -/
def State.readByte (s : State) (sp : Space) (a : Nat) : Except Fault Byte :=
  if a < s.size sp then
    match (s.cells sp).get a with
    | some v => .ok v
    | none => .error (.unwritten sp a)
  else
    .error (.outOfRange sp a)

/-- `MemRead(S, a, k)`: the `k` bytes from an address on, lowest address first (R8). -/
def State.readBytes (s : State) (sp : Space) : Nat → Nat → Except Fault (List Byte)
  | _, 0 => .ok []
  | a, k + 1 =>
    match s.readByte sp a with
    | .error e => .error e
    | .ok v =>
      match s.readBytes sp (a + 1) k with
      | .error e => .error e
      | .ok vs => .ok (v :: vs)

/-- The little-endian word at an address: `le32` of `MemRead(S, a, 4)` (R50, R52). -/
def State.readWord (s : State) (sp : Space) (a : Nat) : Except Fault Word :=
  match s.readByte sp a, s.readByte sp (a + 1), s.readByte sp (a + 2), s.readByte sp (a + 3) with
  | .ok b0, .ok b1, .ok b2, .ok b3 => .ok (le32 b0 b1 b2 b3)
  | .error e, _, _, _ => .error e
  | _, .error e, _, _ => .error e
  | _, _, .error e, _ => .error e
  | _, _, _, .error e => .error e

/-- The `k` consecutive little-endian words from an address on. -/
def State.readWords (s : State) (sp : Space) (a : Nat) : (k : Nat) → Except Fault (Vector Word k)
  | 0 => .ok #v[]
  | k + 1 =>
    match s.readWords sp a k with
    | .error e => .error e
    | .ok ws =>
      match s.readWord sp (a + 4 * k) with
      | .error e => .error e
      | .ok v => .ok (ws.push v)

/-- Whether a read of the address answers a value. -/
def State.readable (s : State) (sp : Space) (a : Nat) : Bool :=
  match s.readByte sp a with
  | .ok _ => true
  | .error _ => false

/-- Goes on with what a read gives; a modelling fault of the read is the step's fault. -/
def andThen {α : Type} (r : Except Fault α) (k : α → State) : Result :=
  match r with
  | .ok v => .next (k v)
  | .error e => .fault e

/-! ### The shared part of the 64 round operations -/

/-- How a round operation moves the sequencer: `if i < 64: I <- i + 1, else: PH <- S_FOLD`, with
`c = i − 1` (R135). -/
def State.advance (s : State) (c : BitVec 6) : State :=
  if c.toNat < 63 then s.setIdx (c + 1) else s.setPh .sFold

/-- Round operation `i = c + 1` (R135): one of `W[0..3]` is written, then the sequencer moves. -/
def State.roundOp (s : State) (c : BitVec 6) : State :=
  (s.setW (roundWords c s.w s.x)).advance c

end Sys2Proof.Machine
end

