-- ==== Sys2Proof/Machine/Accumulator.lean ====
section
/-! DEFINITION. The StateAccumulator: operations INIT, SNAP, FOLD (43_state_accumulator.md). -/

namespace Sys2Proof.Machine

/-- `INIT` (R161): loads the four fixed constants into `H`. -/
def execInit (s : State) : Result :=
  .next ((s.setH iv).setPh .sPad)

/-- `SNAP` (R160): copies `H` into `W` and sets `I` to 1. -/
def execSnap (s : State) : Result :=
  .next (((s.setW s.h).setIdx 0).setPh .sRound)

/-- How `FOLD` moves the sequencer: to the next chunk while there is one, else to `S_ENCODE` (R163). -/
def State.nextChunk (s : State) : State :=
  if s.j + 1 < s.l / 64 then (s.setJ (s.j + 1)).setPh .sDecode else s.setPh .sEncode

/-- `FOLD` (R163): adds `W` to `H` component-wise modulo 2^32, then moves the sequencer. -/
def execFold (s : State) : Result :=
  .next (s.setH (addWords s.h s.w)).nextChunk

end Sys2Proof.Machine
end

