-- ==== Sys2Proof/Machine/ChunkDecoder.lean ====
section
/-! DEFINITION. The ChunkDecoder: operation DECODE (41_chunk_decoder.md). -/

namespace Sys2Proof.Machine

/-- `DECODE` (R120): reads `J` and `PB[64J .. 64J+63]`; writes `X[0..15]` and `PH`. The read faults only
where a byte of the chunk is outside `PB` or has no value (log entries 2 and 3). -/
def execDecode (s : State) : Result :=
  andThen (s.readWords .pb (64 * s.j) 16) fun x => (s.setX x).setPh .sSnap

end Sys2Proof.Machine
end

