-- ==== Sys2Proof/Machine/Encoder.lean ====
section
/-! DEFINITION. The digest encoder: operation ENCODE (44_digest_encoder.md). -/

namespace Sys2Proof.Machine

/-- `ENCODE` (R170): writes the sixteen bytes of `H` to `DG[0..15]`. -/
def execEncode (s : State) : Result :=
  .next ((s.setDg (s.dg.setBytes 0 (digestBytes s.h))).setPh .done)

end Sys2Proof.Machine
end

