-- ==== Sys2Proof/Machine/Padder.lean ====
section
/-! DEFINITION. The Padder: operation PAD (40_padder.md). -/

namespace Sys2Proof.Machine

/-- `PAD` (R100): reads `N` and `MSG[0..N−1]`; writes `PB[0..L−1]`, `L`, `J`, `PH`. The whole space `PB`
is written, so it holds exactly the `L` padded bytes afterwards (R30, R55; log entry 4). The read
faults only where a byte of the message has no value (log entry 2). -/
def execPad (s : State) : Result :=
  andThen (s.readBytes .msg 0 s.n) fun m =>
    (((s.setPb (Memory.ofBytes 0 (padBytes m))).setL (padLen s.n)).setJ 0).setPh .sDecode

end Sys2Proof.Machine
end

