-- ==== Sys2Proof/Machine/Round1.lean ====
section
/-! DEFINITION. The sixteen operations `ROUND1 p`, `p = 0..15`: rule R135 with the function F
(42_round_engine.md R136). Each is the common step at its own 6-bit code. They are total: no operand value
is illegal (R149). -/

namespace Sys2Proof.Machine

/-- `ROUND1 0` = `OP 1` (R136). -/
def execRound1_0 (s : State) : Result :=
  .next (s.roundOp 0x00)

/-- `ROUND1 1` = `OP 2` (R136). -/
def execRound1_1 (s : State) : Result :=
  .next (s.roundOp 0x01)

/-- `ROUND1 2` = `OP 3` (R136). -/
def execRound1_2 (s : State) : Result :=
  .next (s.roundOp 0x02)

/-- `ROUND1 3` = `OP 4` (R136). -/
def execRound1_3 (s : State) : Result :=
  .next (s.roundOp 0x03)

/-- `ROUND1 4` = `OP 5` (R136). -/
def execRound1_4 (s : State) : Result :=
  .next (s.roundOp 0x04)

/-- `ROUND1 5` = `OP 6` (R136). -/
def execRound1_5 (s : State) : Result :=
  .next (s.roundOp 0x05)

/-- `ROUND1 6` = `OP 7` (R136). -/
def execRound1_6 (s : State) : Result :=
  .next (s.roundOp 0x06)

/-- `ROUND1 7` = `OP 8` (R136). -/
def execRound1_7 (s : State) : Result :=
  .next (s.roundOp 0x07)

/-- `ROUND1 8` = `OP 9` (R136). -/
def execRound1_8 (s : State) : Result :=
  .next (s.roundOp 0x08)

/-- `ROUND1 9` = `OP 10` (R136). -/
def execRound1_9 (s : State) : Result :=
  .next (s.roundOp 0x09)

/-- `ROUND1 10` = `OP 11` (R136). -/
def execRound1_10 (s : State) : Result :=
  .next (s.roundOp 0x0A)

/-- `ROUND1 11` = `OP 12` (R136). -/
def execRound1_11 (s : State) : Result :=
  .next (s.roundOp 0x0B)

/-- `ROUND1 12` = `OP 13` (R136). -/
def execRound1_12 (s : State) : Result :=
  .next (s.roundOp 0x0C)

/-- `ROUND1 13` = `OP 14` (R136). -/
def execRound1_13 (s : State) : Result :=
  .next (s.roundOp 0x0D)

/-- `ROUND1 14` = `OP 15` (R136). -/
def execRound1_14 (s : State) : Result :=
  .next (s.roundOp 0x0E)

/-- `ROUND1 15` = `OP 16` (R136). -/
def execRound1_15 (s : State) : Result :=
  .next (s.roundOp 0x0F)

end Sys2Proof.Machine
end

