-- ==== Sys2Proof/Machine/Round2.lean ====
section
/-! DEFINITION. The sixteen operations `ROUND2 p`, `p = 0..15`: rule R135 with the function G
(42_round_engine.md R137). Each is the common step at its own 6-bit code. They are total: no operand value
is illegal (R149). -/

namespace Sys2Proof.Machine

/-- `ROUND2 0` = `OP 17` (R137). -/
def execRound2_0 (s : State) : Result :=
  .next (s.roundOp 0x10)

/-- `ROUND2 1` = `OP 18` (R137). -/
def execRound2_1 (s : State) : Result :=
  .next (s.roundOp 0x11)

/-- `ROUND2 2` = `OP 19` (R137). -/
def execRound2_2 (s : State) : Result :=
  .next (s.roundOp 0x12)

/-- `ROUND2 3` = `OP 20` (R137). -/
def execRound2_3 (s : State) : Result :=
  .next (s.roundOp 0x13)

/-- `ROUND2 4` = `OP 21` (R137). -/
def execRound2_4 (s : State) : Result :=
  .next (s.roundOp 0x14)

/-- `ROUND2 5` = `OP 22` (R137). -/
def execRound2_5 (s : State) : Result :=
  .next (s.roundOp 0x15)

/-- `ROUND2 6` = `OP 23` (R137). -/
def execRound2_6 (s : State) : Result :=
  .next (s.roundOp 0x16)

/-- `ROUND2 7` = `OP 24` (R137). -/
def execRound2_7 (s : State) : Result :=
  .next (s.roundOp 0x17)

/-- `ROUND2 8` = `OP 25` (R137). -/
def execRound2_8 (s : State) : Result :=
  .next (s.roundOp 0x18)

/-- `ROUND2 9` = `OP 26` (R137). -/
def execRound2_9 (s : State) : Result :=
  .next (s.roundOp 0x19)

/-- `ROUND2 10` = `OP 27` (R137). -/
def execRound2_10 (s : State) : Result :=
  .next (s.roundOp 0x1A)

/-- `ROUND2 11` = `OP 28` (R137). -/
def execRound2_11 (s : State) : Result :=
  .next (s.roundOp 0x1B)

/-- `ROUND2 12` = `OP 29` (R137). -/
def execRound2_12 (s : State) : Result :=
  .next (s.roundOp 0x1C)

/-- `ROUND2 13` = `OP 30` (R137). -/
def execRound2_13 (s : State) : Result :=
  .next (s.roundOp 0x1D)

/-- `ROUND2 14` = `OP 31` (R137). -/
def execRound2_14 (s : State) : Result :=
  .next (s.roundOp 0x1E)

/-- `ROUND2 15` = `OP 32` (R137). -/
def execRound2_15 (s : State) : Result :=
  .next (s.roundOp 0x1F)

end Sys2Proof.Machine
end

