-- ==== Sys2Proof/Machine/Round3.lean ====
section
/-! DEFINITION. The sixteen operations `ROUND3 p`, `p = 0..15`: rule R135 with the function H
(42_round_engine.md R138). Each is the common step at its own 6-bit code. They are total: no operand value
is illegal (R149). -/

namespace Sys2Proof.Machine

/-- `ROUND3 0` = `OP 33` (R138). -/
def execRound3_0 (s : State) : Result :=
  .next (s.roundOp 0x20)

/-- `ROUND3 1` = `OP 34` (R138). -/
def execRound3_1 (s : State) : Result :=
  .next (s.roundOp 0x21)

/-- `ROUND3 2` = `OP 35` (R138). -/
def execRound3_2 (s : State) : Result :=
  .next (s.roundOp 0x22)

/-- `ROUND3 3` = `OP 36` (R138). -/
def execRound3_3 (s : State) : Result :=
  .next (s.roundOp 0x23)

/-- `ROUND3 4` = `OP 37` (R138). -/
def execRound3_4 (s : State) : Result :=
  .next (s.roundOp 0x24)

/-- `ROUND3 5` = `OP 38` (R138). -/
def execRound3_5 (s : State) : Result :=
  .next (s.roundOp 0x25)

/-- `ROUND3 6` = `OP 39` (R138). -/
def execRound3_6 (s : State) : Result :=
  .next (s.roundOp 0x26)

/-- `ROUND3 7` = `OP 40` (R138). -/
def execRound3_7 (s : State) : Result :=
  .next (s.roundOp 0x27)

/-- `ROUND3 8` = `OP 41` (R138). -/
def execRound3_8 (s : State) : Result :=
  .next (s.roundOp 0x28)

/-- `ROUND3 9` = `OP 42` (R138). -/
def execRound3_9 (s : State) : Result :=
  .next (s.roundOp 0x29)

/-- `ROUND3 10` = `OP 43` (R138). -/
def execRound3_10 (s : State) : Result :=
  .next (s.roundOp 0x2A)

/-- `ROUND3 11` = `OP 44` (R138). -/
def execRound3_11 (s : State) : Result :=
  .next (s.roundOp 0x2B)

/-- `ROUND3 12` = `OP 45` (R138). -/
def execRound3_12 (s : State) : Result :=
  .next (s.roundOp 0x2C)

/-- `ROUND3 13` = `OP 46` (R138). -/
def execRound3_13 (s : State) : Result :=
  .next (s.roundOp 0x2D)

/-- `ROUND3 14` = `OP 47` (R138). -/
def execRound3_14 (s : State) : Result :=
  .next (s.roundOp 0x2E)

/-- `ROUND3 15` = `OP 48` (R138). -/
def execRound3_15 (s : State) : Result :=
  .next (s.roundOp 0x2F)

end Sys2Proof.Machine
end

