-- ==== Sys2Proof/Machine/Round4.lean ====
section
/-! DEFINITION. The sixteen operations `ROUND4 p`, `p = 0..15`: rule R135 with the function I
(42_round_engine.md R139). Each is the common step at its own 6-bit code. They are total: no operand value
is illegal (R149). -/

namespace Sys2Proof.Machine

/-- `ROUND4 0` = `OP 49` (R139). -/
def execRound4_0 (s : State) : Result :=
  .next (s.roundOp 0x30)

/-- `ROUND4 1` = `OP 50` (R139). -/
def execRound4_1 (s : State) : Result :=
  .next (s.roundOp 0x31)

/-- `ROUND4 2` = `OP 51` (R139). -/
def execRound4_2 (s : State) : Result :=
  .next (s.roundOp 0x32)

/-- `ROUND4 3` = `OP 52` (R139). -/
def execRound4_3 (s : State) : Result :=
  .next (s.roundOp 0x33)

/-- `ROUND4 4` = `OP 53` (R139). -/
def execRound4_4 (s : State) : Result :=
  .next (s.roundOp 0x34)

/-- `ROUND4 5` = `OP 54` (R139). -/
def execRound4_5 (s : State) : Result :=
  .next (s.roundOp 0x35)

/-- `ROUND4 6` = `OP 55` (R139). -/
def execRound4_6 (s : State) : Result :=
  .next (s.roundOp 0x36)

/-- `ROUND4 7` = `OP 56` (R139). -/
def execRound4_7 (s : State) : Result :=
  .next (s.roundOp 0x37)

/-- `ROUND4 8` = `OP 57` (R139). -/
def execRound4_8 (s : State) : Result :=
  .next (s.roundOp 0x38)

/-- `ROUND4 9` = `OP 58` (R139). -/
def execRound4_9 (s : State) : Result :=
  .next (s.roundOp 0x39)

/-- `ROUND4 10` = `OP 59` (R139). -/
def execRound4_10 (s : State) : Result :=
  .next (s.roundOp 0x3A)

/-- `ROUND4 11` = `OP 60` (R139). -/
def execRound4_11 (s : State) : Result :=
  .next (s.roundOp 0x3B)

/-- `ROUND4 12` = `OP 61` (R139). -/
def execRound4_12 (s : State) : Result :=
  .next (s.roundOp 0x3C)

/-- `ROUND4 13` = `OP 62` (R139). -/
def execRound4_13 (s : State) : Result :=
  .next (s.roundOp 0x3D)

/-- `ROUND4 14` = `OP 63` (R139). -/
def execRound4_14 (s : State) : Result :=
  .next (s.roundOp 0x3E)

/-- `ROUND4 15` = `OP 64` (R139). -/
def execRound4_15 (s : State) : Result :=
  .next (s.roundOp 0x3F)

end Sys2Proof.Machine
end

