-- ==== Sys2Proof/Machine/Dispatch.lean ====
section
/-! DEFINITION. What an operation does: one arm per constructor of `Instr`, each one call of the
operation's meaning. The rules are functions of the register state alone and apply in any state
(30_encoding.md R88; log entry 8); which operation runs is the sequencer's choice (Machine/Step.lean). -/

namespace Sys2Proof.Machine

def exec (i : Instr) (s : State) : Host.Outcome State Fault Refusal :=
  match i with
  | .round1_0 => Sys2Proof.Machine.execRound1_0 s
  | .round1_1 => Sys2Proof.Machine.execRound1_1 s
  | .round1_2 => Sys2Proof.Machine.execRound1_2 s
  | .round1_3 => Sys2Proof.Machine.execRound1_3 s
  | .round1_4 => Sys2Proof.Machine.execRound1_4 s
  | .round1_5 => Sys2Proof.Machine.execRound1_5 s
  | .round1_6 => Sys2Proof.Machine.execRound1_6 s
  | .round1_7 => Sys2Proof.Machine.execRound1_7 s
  | .round1_8 => Sys2Proof.Machine.execRound1_8 s
  | .round1_9 => Sys2Proof.Machine.execRound1_9 s
  | .round1_10 => Sys2Proof.Machine.execRound1_10 s
  | .round1_11 => Sys2Proof.Machine.execRound1_11 s
  | .round1_12 => Sys2Proof.Machine.execRound1_12 s
  | .round1_13 => Sys2Proof.Machine.execRound1_13 s
  | .round1_14 => Sys2Proof.Machine.execRound1_14 s
  | .round1_15 => Sys2Proof.Machine.execRound1_15 s
  | .round2_0 => Sys2Proof.Machine.execRound2_0 s
  | .round2_1 => Sys2Proof.Machine.execRound2_1 s
  | .round2_2 => Sys2Proof.Machine.execRound2_2 s
  | .round2_3 => Sys2Proof.Machine.execRound2_3 s
  | .round2_4 => Sys2Proof.Machine.execRound2_4 s
  | .round2_5 => Sys2Proof.Machine.execRound2_5 s
  | .round2_6 => Sys2Proof.Machine.execRound2_6 s
  | .round2_7 => Sys2Proof.Machine.execRound2_7 s
  | .round2_8 => Sys2Proof.Machine.execRound2_8 s
  | .round2_9 => Sys2Proof.Machine.execRound2_9 s
  | .round2_10 => Sys2Proof.Machine.execRound2_10 s
  | .round2_11 => Sys2Proof.Machine.execRound2_11 s
  | .round2_12 => Sys2Proof.Machine.execRound2_12 s
  | .round2_13 => Sys2Proof.Machine.execRound2_13 s
  | .round2_14 => Sys2Proof.Machine.execRound2_14 s
  | .round2_15 => Sys2Proof.Machine.execRound2_15 s
  | .round3_0 => Sys2Proof.Machine.execRound3_0 s
  | .round3_1 => Sys2Proof.Machine.execRound3_1 s
  | .round3_2 => Sys2Proof.Machine.execRound3_2 s
  | .round3_3 => Sys2Proof.Machine.execRound3_3 s
  | .round3_4 => Sys2Proof.Machine.execRound3_4 s
  | .round3_5 => Sys2Proof.Machine.execRound3_5 s
  | .round3_6 => Sys2Proof.Machine.execRound3_6 s
  | .round3_7 => Sys2Proof.Machine.execRound3_7 s
  | .round3_8 => Sys2Proof.Machine.execRound3_8 s
  | .round3_9 => Sys2Proof.Machine.execRound3_9 s
  | .round3_10 => Sys2Proof.Machine.execRound3_10 s
  | .round3_11 => Sys2Proof.Machine.execRound3_11 s
  | .round3_12 => Sys2Proof.Machine.execRound3_12 s
  | .round3_13 => Sys2Proof.Machine.execRound3_13 s
  | .round3_14 => Sys2Proof.Machine.execRound3_14 s
  | .round3_15 => Sys2Proof.Machine.execRound3_15 s
  | .round4_0 => Sys2Proof.Machine.execRound4_0 s
  | .round4_1 => Sys2Proof.Machine.execRound4_1 s
  | .round4_2 => Sys2Proof.Machine.execRound4_2 s
  | .round4_3 => Sys2Proof.Machine.execRound4_3 s
  | .round4_4 => Sys2Proof.Machine.execRound4_4 s
  | .round4_5 => Sys2Proof.Machine.execRound4_5 s
  | .round4_6 => Sys2Proof.Machine.execRound4_6 s
  | .round4_7 => Sys2Proof.Machine.execRound4_7 s
  | .round4_8 => Sys2Proof.Machine.execRound4_8 s
  | .round4_9 => Sys2Proof.Machine.execRound4_9 s
  | .round4_10 => Sys2Proof.Machine.execRound4_10 s
  | .round4_11 => Sys2Proof.Machine.execRound4_11 s
  | .round4_12 => Sys2Proof.Machine.execRound4_12 s
  | .round4_13 => Sys2Proof.Machine.execRound4_13 s
  | .round4_14 => Sys2Proof.Machine.execRound4_14 s
  | .round4_15 => Sys2Proof.Machine.execRound4_15 s
  | .init => Sys2Proof.Machine.execInit s
  | .pad => Sys2Proof.Machine.execPad s
  | .decode => Sys2Proof.Machine.execDecode s
  | .snap => Sys2Proof.Machine.execSnap s
  | .fold => Sys2Proof.Machine.execFold s
  | .encode => Sys2Proof.Machine.execEncode s

end Sys2Proof.Machine
end

