-- ==== Sys2Proof/Machine/HostPort.lean ====
section
/-! DEFINITION. The host transactions START and READ, and the reset input (45_sequencer_and_host.md,
70_reset_and_hazards.md). The host has no other access (45 R183). -/

namespace Sys2Proof.Machine

/-- Whether the instance admits a message of `n` bytes: `n ≤ MAX_N` if `MAX_N` is set (R180, R181). -/
def State.admits (s : State) (n : Nat) : Bool :=
  match s.maxN with
  | none => true
  | some k => decide (n ≤ k)

/-- START is enabled when `PH = IDLE` or `PH = DONE`, and the instance admits the length (R180, R181). -/
def State.startEnabled (s : State) (m : List Byte) : Bool :=
  !s.ph.busy && s.admits m.length

/-- What `START(m, n)` does: `N <- n`, `MSG <- m`, `PH <- S_INIT`; all other state stays (R180). -/
def State.start (s : State) (m : List Byte) : State :=
  ((s.setN m.length).setMsg (Memory.ofBytes 0 m)).setPh .sInit

/-- READ is enabled when `PH = DONE` (R182). -/
def State.readEnabled (s : State) : Bool :=
  decide (s.ph = .done)

/-- What READ returns: `MemRead(DG, 0, 16)` (R182). -/
def State.readDigest (s : State) : Except Fault (List Byte) :=
  s.readBytes .dg 0 16

/-- The host's move in `IDLE` or `DONE`: its next transaction takes place if it is enabled and is then
no longer to come. With none to come, or one that is not enabled, nothing moves: "waiting has no
architectural effect and keeps all state" (60 R213; log entry 5). -/
def State.hostMove (s : State) : Result :=
  match s.pending with
  | [] => .next s
  | .start m :: rest =>
    if s.startEnabled m then .next ((s.start m).setPending rest) else .next s
  | .read :: rest =>
    if s.readEnabled then
      andThen s.readDigest fun bs => (s.setDelivered (s.delivered ++ [bs])).setPending rest
    else
      .next s

/-- A reset while the core is in any state: "the state becomes that of rule R220" and a run in progress
is abandoned (70 R224). The instance's
parameter and the host's own side stay. It is an input, not a step of the core (log entry
14). -/
def State.resetInput (s : State) : State :=
  ((State.reset.setMaxN s.maxN).setPending s.pending).setDelivered s.delivered

end Sys2Proof.Machine
end

