-- ==== Sys2Proof/Machine/Sequencer.lean ====
section
/-! DEFINITION. The sequencer: which operation code the state selects (30_encoding.md R81, R88). The
core has no program counter and fetches no instructions; `(PH, J, I)` stands in that place
(10_state.md R26). How each operation moves it is part of the operation's own meaning. -/

namespace Sys2Proof.Machine

/-- `opcode(PH, I)`: the code selected by the sequencer state, with `idx = I − 1`; `IDLE` and `DONE`
select none (R81). -/
def opcode (ph : Phase) (idx : BitVec 6) : Option OpCode :=
  match ph with
  | .idle => none
  | .sInit => some 0x40
  | .sPad => some 0x41
  | .sDecode => some 0x42
  | .sSnap => some 0x43
  | .sRound => some (idx.setWidth 7)
  | .sFold => some 0x44
  | .sEncode => some 0x45
  | .done => none

/-- The state with the sequencer set so that it selects the code `c`, nothing else changed. A reserved
code can be selected by no sequencer state (R86), and leaves the state as it is. -/
def State.select (s : State) (c : OpCode) : State :=
  if opClass c then
    match (opSub c).toNat with
    | 0 => s.setPh .sInit
    | 1 => s.setPh .sPad
    | 2 => s.setPh .sDecode
    | 3 => s.setPh .sSnap
    | 4 => s.setPh .sFold
    | 5 => s.setPh .sEncode
    | _ => s
  else
    (s.setIdx (opSub c)).setPh .sRound

end Sys2Proof.Machine
end

