-- ==== Sys2Proof/Machine/Step.lean ====
section
/-! DEFINITION. One step: the one agent that is enabled moves (10_state.md R40). In an `S_x` phase the
core executes the operation the sequencer selects (30_encoding.md R88); in `IDLE` and `DONE` the host
moves. -/

namespace Sys2Proof.Machine

/-- Executes the operation a code names; a reserved code is refused by name (R86). -/
def stepCode (c : OpCode) (s : State) : Host.Outcome State Fault Refusal :=
  match decodeCode c with
  | .ok i => exec i s
  | .error _ => .refused (.reservedCode c)

/-- One step of the machine (R26, R40, R88). -/
def step (s : State) : Host.Outcome State Fault Refusal :=
  match opcode s.ph s.idx with
  | some c => stepCode c s
  | none => s.hostMove

/-- The state with the sequencer set so that the very next step runs the operation whose code has the
bits `w`; nothing else changes (log entry 6). A word that names no operation leaves the state as it is,
since no sequencer state selects one (R86). -/
def State.withFetchWord (s : State) (nbits w : Nat) : State :=
  match decodeTableWord nbits w with
  | some i => s.select i.code
  | none => s

end Sys2Proof.Machine
end

