-- ==== Sys2Proof/Machine/Cores.lean ====
section
/-! DEFINITION. Several cores (60_exceptions.md R211): "A model of several cores is the product of
independent single-core models". Each instance has its own copy of all the state; the tables are
constants and are shared. Which core moves next is the caller's choice (log entry 17). -/

namespace Sys2Proof.Machine

/-- The states of the instances of a system. -/
abbrev Cores := List State

/-- `k` instances after reset (00_scope.md R7); `N_CORES` is `Config.defaultCores` by default. -/
def Cores.reset (k : Nat) : Cores :=
  List.replicate k State.reset

/-- Core `k` takes one step and no other core's state is read or written (R211). A number that names no
core moves nothing. -/
def Cores.stepAt (k : Nat) (cs : Cores) : Host.Outcome Cores Fault Refusal :=
  match cs[k]? with
  | none => .next cs
  | some s =>
    match step s with
    | .next t => .next (cs.set k t)
    | .fault e => .fault e
    | .refused r => .refused r

end Sys2Proof.Machine
end

