-- ==== Sys2Proof/Machine/Digest.lean ====
section
/-! DEFINITION. What a run computes, as a function of the message alone (45 R195), in the rules' own
terms: the padded bytes by their four ranges (40 R102), the chunk words (41 R120), the compression
function (42 R149), the chunk function (43 R165), the digest. `step` does not use these definitions;
statements hold the machine against them. -/

namespace Sys2Proof.Machine

/-- `PB[a]` for `a < L`, by the four ranges of R102. -/
def padByte (m : List Byte) (a : Nat) : Byte :=
  if a < m.length then m.getD a 0
  else if a = m.length then 0x80
  else if a + 9 ≤ padLen m.length then 0
  else byteOf (a - (padLen m.length - 8)) (lengthField m.length)

/-- Word `i` of chunk `j` of the padded message (R52, R120). -/
def chunkWord (m : List Byte) (j i : Nat) : Word :=
  le32 (padByte m (64 * j + 4 * i)) (padByte m (64 * j + 4 * i + 1))
    (padByte m (64 * j + 4 * i + 2)) (padByte m (64 * j + 4 * i + 3))

/-- The sixteen words of chunk `j` (R120, R121). -/
def chunkWords (m : List Byte) (j : Nat) : Vector Word 16 :=
  Vector.ofFn fun i => chunkWord m j i

/-- The working registers after operations `1..k` from the snapshot `h` (R130, R149). -/
def roundsUpTo (h : Vector Word 4) (x : Vector Word 16) : Nat → Vector Word 4
  | 0 => h
  | k + 1 => roundWords (BitVec.ofNat 6 k) (roundsUpTo h x k) x

/-- `R(h, x)`: the compression output, `W` after operation 64 (R149). -/
def compress (h : Vector Word 4) (x : Vector Word 16) : Vector Word 4 :=
  roundsUpTo h x 64

/-- `h_j`: the HashState after `j` chunks (R165, R195). -/
def hashAfter (m : List Byte) : Nat → Vector Word 4
  | 0 => iv
  | j + 1 => addWords (hashAfter m j) (compress (hashAfter m j) (chunkWords m j))

/-- `digest(m, n)` with `n` the length of `m` (R195). -/
def digest (m : List Byte) : List Byte :=
  digestBytes (hashAfter m (numChunks m.length))

/-! ### The display form of a digest -/

/-- A lower-case hexadecimal digit. -/
def hexDigit (v : Nat) : Char :=
  if v < 10 then Char.ofNat (48 + v) else Char.ofNat (87 + v)

/-- The canonical display form: two lower-case hexadecimal digits a byte, in digest order (44 R172). It is outside
the core, and no operation makes it. -/
def displayForm (bs : List Byte) : List Char :=
  bs.flatMap fun b => [hexDigit (b.toNat / 16), hexDigit (b.toNat % 16)]

end Sys2Proof.Machine
end

