-- ==== Sys2Proof/Machine/Listing.lean ====
section
/-! DEFINITION. Operation listings (30_encoding.md R89, R90, R92) and the schedule of a message (45
R190): which operations a line stands for, and how a line of text is read. -/

namespace Sys2Proof.Machine

/-! ### What a line stands for -/

/-- `ROUNDr p` with `rr = r − 1`, for `p` in 0..15 (R89). -/
def roundSpelling (rr : BitVec 2) (p : Nat) : Option Instr :=
  if p ≤ 15 then some (roundInstr rr (BitVec.ofNat 4 p)) else none

/-- `OP i`, for `i` in 1..64: `ROUNDr p` with `r = ceil(i/16)`, `p = (i − 1) mod 16` (R89, R92). -/
def opSpelling (i : Nat) : Option Instr :=
  if 1 ≤ i ∧ i ≤ 64 then
    some (roundInstr (BitVec.ofNat 2 ((i - 1) / 16)) (BitVec.ofNat 4 ((i - 1) % 16)))
  else
    none

/-- `ROUNDS` = `OP 1; OP 2; …; OP 64` (R90). -/
def roundsExpansion : List Instr :=
  (List.range 64).filterMap fun c => opSpelling (c + 1)

/-- `COMPRESS` = `DECODE; SNAP; ROUNDS; FOLD` (R90). -/
def compressExpansion : List Instr :=
  [.decode, .snap] ++ roundsExpansion ++ [.fold]

/-- `HASH` for `nch` chunks = `INIT; PAD;` then `COMPRESS` `nch` times, then `ENCODE` (R90). -/
def hashExpansion (nch : Nat) : List Instr :=
  [.init, .pad] ++ (List.replicate nch compressExpansion).flatten ++ [.encode]

/-- The schedule: the operations between `START` and `DONE` for a message of `n` bytes (R190). -/
def schedule (n : Nat) : List Instr :=
  hashExpansion (numChunks n)

/-- The operations a well-formed line stands for, with `nch` the number of chunks of the message
(`HASH` depends on it); `START` and `READ` are host transactions and stand for none (R89, R90). -/
def lineOps (nch : Nat) (l : Line) : Option (List Instr) :=
  match l.mnemonic, l.operand with
  | .init, none => some [.init]
  | .pad, none => some [.pad]
  | .decode, none => some [.decode]
  | .snap, none => some [.snap]
  | .fold, none => some [.fold]
  | .encode, none => some [.encode]
  | .round1, some p => (roundSpelling 0 p).map fun i => [i]
  | .round2, some p => (roundSpelling 1 p).map fun i => [i]
  | .round3, some p => (roundSpelling 2 p).map fun i => [i]
  | .round4, some p => (roundSpelling 3 p).map fun i => [i]
  | .op, some i => (opSpelling i).map fun i => [i]
  | .rounds, none => some roundsExpansion
  | .compress, none => some compressExpansion
  | .hash, none => some (hashExpansion nch)
  | _, _ => none

/-- A code written in a line is the code of the one operation the line stands for (R89). -/
def codeAgrees (l : Line) : Bool :=
  match l.code, lineOps 0 l with
  | none, _ => true
  | some c, some [i] => decide (i.code = c)
  | some _, _ => false

/-! ### Reading a line of text -/

/-- The mnemonics as they are written, upper case (R89). -/
def mnemonicNames : List (List Char × Mnemonic) :=
  [("INIT".toList, .init), ("PAD".toList, .pad), ("DECODE".toList, .decode), ("SNAP".toList, .snap),
   ("FOLD".toList, .fold), ("ENCODE".toList, .encode), ("ROUND1".toList, .round1),
   ("ROUND2".toList, .round2), ("ROUND3".toList, .round3), ("ROUND4".toList, .round4),
   ("OP".toList, .op), ("START".toList, .start), ("READ".toList, .read), ("ROUNDS".toList, .rounds),
   ("COMPRESS".toList, .compress), ("HASH".toList, .hash)]

/-- The mnemonic a token spells. -/
def readMnemonic (t : List Char) : Option Mnemonic :=
  (mnemonicNames.find? fun e => decide (e.1 = t)).map fun e => e.2

/-- The value of a digit, decimal or hexadecimal of either case. -/
def digitValue (c : Char) : Option Nat :=
  let v := c.toNat
  if 48 ≤ v ∧ v ≤ 57 then some (v - 48)
  else if 65 ≤ v ∧ v ≤ 70 then some (v - 55)
  else if 97 ≤ v ∧ v ≤ 102 then some (v - 87)
  else none

/-- The value of a string of digits below `base`, most significant first, after `acc`. -/
def readDigits (base : Nat) : Nat → List Char → Option Nat
  | acc, [] => some acc
  | acc, c :: cs =>
    match digitValue c with
    | none => none
    | some d => if d < base then readDigits base (base * acc + d) cs else none

/-- A decimal operand: one digit or more (R89). -/
def readOperand (t : List Char) : Option Nat :=
  if t.isEmpty then none else readDigits 10 0 t

/-- A code: two hexadecimal digits, a 7-bit value (R89). -/
def readCode (t : List Char) : Option OpCode :=
  if t.length = 2 then
    match readDigits 16 0 t with
    | some v => if v < 128 then some (BitVec.ofNat 7 v) else none
    | none => none
  else
    none

/-- A token that has ended is put before the rest; an empty one is dropped. -/
def endToken (t : List Char) (rest : List (List Char)) : List (List Char) :=
  if t.isEmpty then rest else t :: rest

/-- The tokens of a line: separated by spaces, up to the semicolon that opens a comment (R89). The
first argument is the token being read. -/
def tokens : List Char → List Char → List (List Char)
  | t, [] => endToken t []
  | t, c :: cs =>
    if c = ';' then endToken t []
    else if c = ' ' then endToken t (tokens [] cs)
    else tokens (t ++ [c]) cs

/-- Reads `[ code ] mnemonic [ operand ] [ ';' comment ]` (R89); `none` where the text is no line. -/
def readLine (text : List Char) : Option Line :=
  match tokens [] text with
  | [a] => (readMnemonic a).map fun m => ⟨none, m, none⟩
  | [a, b] =>
    match readMnemonic a with
    | some m => (readOperand b).map fun v => ⟨none, m, some v⟩
    | none =>
      match readCode a, readMnemonic b with
      | some c, some m => some ⟨some c, m, none⟩
      | _, _ => none
  | [a, b, d] =>
    match readCode a, readMnemonic b, readOperand d with
    | some c, some m, some v => some ⟨some c, m, some v⟩
    | _, _, _ => none
  | _ => none

end Sys2Proof.Machine
end

