-- ==== Sys2Proof/Safety.lean ====
section
/-! DEFINITION. What counts as a safe run, and the other terms that statements about the machine use.
`step` uses none of them. -/

namespace Sys2Proof.Machine

/-! ### Memory -/

/-- The three memories are in their canonical form. -/
def State.memWf (s : State) : Bool :=
  s.msg.wf && s.pb.wf && s.dg.wf

/-- Every address of a space from `lo` up to `hi` reads as a value. -/
def State.AllReadable (s : State) (sp : Space) (lo hi : Nat) : Prop :=
  ∀ a, lo ≤ a → a < hi → s.readable sp a = true

/-- Two states read the same below an address of a space. -/
def State.SameReads (s t : State) (sp : Space) (len : Nat) : Prop :=
  ∀ a, a < len → t.readByte sp a = s.readByte sp a

/-! ### The invariant of a run -/

/-- What holds between two steps of a run, phase by phase: the bytes the next operations read are there,
and the sequencer's registers are as the schedule leaves them (70 R222; 40 R102; 45 R185, R187). It
rules out the states in which a read would be a modelling fault. -/
def State.Inv (s : State) : Prop :=
  s.memWf = true ∧
    match s.ph with
    | .idle => True
    | .sInit | .sPad => s.AllReadable .msg 0 s.n
    | .sDecode | .sSnap | .sRound =>
      s.l = padLen s.n ∧ s.j < s.l / 64 ∧ s.AllReadable .pb 0 s.l
    | .sFold => s.l = padLen s.n ∧ s.j < s.l / 64 ∧ s.AllReadable .pb 0 s.l ∧ s.idx = 63
    | .sEncode => s.l = padLen s.n ∧ s.j + 1 = s.l / 64 ∧ s.idx = 63
    | .done => s.l = padLen s.n ∧ s.j + 1 = s.l / 64 ∧ s.idx = 63 ∧ s.AllReadable .dg 0 16

/-! ### Comparing states -/

/-- The core's own tuple (10_state.md R40): the state without the host's side of the interface. -/
def State.core (s : State) : State :=
  (s.setPending []).setDelivered []

/-- The two states are in the same phase and agree on the live state of that phase, by the table of
10_state.md R41; everything else may differ. -/
def State.LiveEq (s t : State) : Prop :=
  t.ph = s.ph ∧
    match s.ph with
    | .idle => True
    | .sInit => t.n = s.n ∧ s.SameReads t .msg s.n
    | .sPad => t.n = s.n ∧ s.SameReads t .msg s.n ∧ t.h = s.h
    | .sDecode => t.j = s.j ∧ t.l = s.l ∧ s.SameReads t .pb s.l ∧ t.h = s.h
    | .sSnap => t.j = s.j ∧ t.l = s.l ∧ s.SameReads t .pb s.l ∧ t.h = s.h ∧ t.x = s.x
    | .sRound =>
      t.j = s.j ∧ t.l = s.l ∧ s.SameReads t .pb s.l ∧ t.h = s.h ∧ t.x = s.x ∧ t.w = s.w ∧ t.idx = s.idx
    | .sFold => t.j = s.j ∧ t.l = s.l ∧ s.SameReads t .pb s.l ∧ t.h = s.h ∧ t.w = s.w
    | .sEncode => t.h = s.h
    | .done => s.SameReads t .dg 16

/-! ### Runs -/

/-- `k` steps, stopping at the first fault or refusal: `Host.Core.run` of the machine. -/
def run : Nat → State → Result
  | 0, s => .next s
  | k + 1, s =>
    match step s with
    | .next t => run k t
    | .fault e => .fault e
    | .refused r => .refused r

/-- The operation codes executed by the first `k` steps, in order; a step of the host executes none. The
list ends where the machine stops. -/
def trace : Nat → State → List OpCode
  | 0, _ => []
  | k + 1, s =>
    match step s with
    | .next t => (opcode s.ph s.idx).toList ++ trace k t
    | .fault _ => []
    | .refused _ => []

/-- The number of operations between `START` and `DONE` for a message of `n` bytes (45 R191). -/
def runLength (n : Nat) : Nat :=
  3 + 67 * numChunks n

/-! ### The rows of the round operations -/

/-- One row of the tables of 42_round_engine.md R136 to R139: an operation with everything its index
looks up. -/
structure RoundRow where
  op : Instr
  i : Nat
  target : Fin 4
  b : Fin 4
  c : Fin 4
  d : Fin 4
  k : Fin 16
  s : Nat
  t : Word
deriving DecidableEq, Repr

/-- The effect column of a row with the round's function, and the row's move of the sequencer: `I <- i + 1`,
or `PH <- S_FOLD` for `i = 64` (R135 to R139). The register `idx` holds `I − 1`. -/
def RoundRow.effect (r : RoundRow) (f : Word → Word → Word → Word) (s : State) : State :=
  { s with
    w := s.w.set r.target
      (s.w[r.b] + rotl32 (s.w[r.target] + f s.w[r.b] s.w[r.c] s.w[r.d] + s.x[r.k] + r.t) r.s)
    idx := if r.i < 64 then BitVec.ofNat 6 r.i else s.idx
    ph := if r.i < 64 then s.ph else .sFold }

end Sys2Proof.Machine
end

