-- ==== Sys2Proof/Certificates/Slice0/Obligations.lean ====
section
/-! DEFINITION. The statements for the provers. Each says which rule of the spec it formalises. -/

open Sys2Proof Sys2Proof.Machine

/-! ## Encoding (30_encoding.md) -/

/-- R92: code and spelling are inverse bijections between 0x00..0x45 and the 70 operations;
`code(ROUNDr p) = 16·(r−1) + p` and `code(OP i) = i − 1`. -/
def Obligations.CodesAndSpellingsAreBijections : Prop :=
  (∀ (c : OpCode) (i : Instr), decodeCode c = .ok i ↔ i.code = c) ∧
  (∀ c : OpCode, (∃ i, decodeCode c = .ok i) ↔ c.toNat ≤ 0x45) ∧
  (∀ (rr : BitVec 2) (p : Nat), p ≤ 15 →
    ∃ i, roundSpelling rr p = some i ∧ i.code.toNat = 16 * rr.toNat + p) ∧
  (∀ k : Nat, 1 ≤ k → k ≤ 64 → ∃ i, opSpelling k = some i ∧ i.code.toNat = k - 1) ∧
  Instr.init.code = 0x40 ∧ Instr.pad.code = 0x41 ∧ Instr.decode.code = 0x42 ∧
  Instr.snap.code = 0x43 ∧ Instr.fold.code = 0x44 ∧ Instr.encode.code = 0x45

/-- Decode and encode agree on byte lists, in both directions: a list decodes to `i` with `rest` left
exactly when it is the encoding of `i` followed by `rest`. One code a byte is the model's layout (log
entry 7). -/
def Obligations.DecodeInvertsEncode : Prop :=
  ∀ (bs : List Byte) (i : Instr) (rest : List Byte),
    i.wf = true → (decode bs = .ok (i, rest) ↔ bs = encode i ++ rest)

/-- R86: 0x46..0x7F name no operation; the decoder answers invalid, the machine refuses to step on one,
and no sequencer state selects one. -/
def Obligations.ReservedCodesRefused : Prop :=
  (∀ c : OpCode, 0x46 ≤ c.toNat →
    decodeCode c = .error (.reserved c) ∧ ∀ s, stepCode c s = .refused (.reservedCode c)) ∧
  (∀ (ph : Phase) (idx : BitVec 6) (c : OpCode), opcode ph idx = some c → c.toNat ≤ 0x45)

/-- A few words of the opcode table, laid out from R81: what the decoder reads from them. -/
def Obligations.TableWordsDecode : Prop :=
  decodeTableWord 8 0x00 = some .round1_0 ∧ decodeTableWord 8 0x0F = some .round1_15 ∧
  decodeTableWord 8 0x1B = some .round2_11 ∧ decodeTableWord 8 0x2F = some .round3_15 ∧
  decodeTableWord 8 0x3F = some .round4_15 ∧ decodeTableWord 8 0x40 = some .init ∧
  decodeTableWord 8 0x41 = some .pad ∧ decodeTableWord 8 0x42 = some .decode ∧
  decodeTableWord 8 0x43 = some .snap ∧ decodeTableWord 8 0x44 = some .fold ∧
  decodeTableWord 8 0x45 = some .encode ∧ decodeTableWord 8 0x46 = none ∧
  decodeTableWord 8 0x5A = none ∧ decodeTableWord 8 0x7F = none

/-- R82: with `i − 1` as a 6-bit number, `ceil(i/16) − 1 = floor((i−1)/16) = op[5:4]`,
`(i−1) mod 16 = op[3:0]`, `p mod 4 = (i−1) mod 4 = op[1:0]`. -/
def Obligations.CodeFieldsAreIndexArithmetic : Prop :=
  ∀ (c : BitVec 6) (i : Nat), i = c.toNat + 1 →
    (i + 15) / 16 - 1 = (i - 1) / 16 ∧ (roundOf c).toNat = (i - 1) / 16 ∧
    (posOf c).toNat = (i - 1) % 16 ∧ (quarterOf c).toNat = (posOf c).toNat % 4 ∧
    (quarterOf c).toNat = (i - 1) % 4

/-- R90: the expansions of the pseudo-operations: `ROUNDS` is `OP 1` to `OP 64`, `COMPRESS` 67 operations,
`HASH` the whole schedule, by its codes: `40 41`, then per chunk `42 43 00 01 … 3F 44`, then `45`. -/
def Obligations.ScheduleCodes : Prop :=
  (∀ n : Nat, (schedule n).map (fun i => i.code.toNat) =
    [0x40, 0x41] ++
      (List.replicate (numChunks n) ([0x42, 0x43] ++ List.range 64 ++ [0x44])).flatten ++ [0x45]) ∧
  (∀ n : Nat, (schedule n).length = 3 + 67 * numChunks n) ∧
  (∀ nch : Nat, (hashExpansion nch).length = 3 + 67 * nch) ∧
  roundsExpansion.map (fun i => i.code.toNat) = List.range 64 ∧
  compressExpansion = [.decode, .snap] ++ roundsExpansion ++ [.fold] ∧ compressExpansion.length = 67

/-! ## Words, tables and look-up (00_scope.md R8, 42_round_engine.md) -/

/-- R8, `rotl32(v, s)` for `0 < s < 32`: bit `b` moves to bit `(b + s) mod 32`, and the value is
`((v · 2^s) mod 2^32) + floor(v / 2^(32−s))`. -/
def Obligations.RotateMovesEveryBit : Prop :=
  ∀ (v : Word) (s : Nat), 0 < s → s < 32 →
    (∀ b : Nat, b < 32 → (rotl32 v s).getLsbD ((b + s) % 32) = v.getLsbD b) ∧
    (rotl32 v s).toNat = (v.toNat * 2 ^ s) % 2 ^ 32 + v.toNat / 2 ^ (32 - s)

/-- R8, R50: `le32` and `byte_k` by their values, and that each undoes the other. -/
def Obligations.WordsAreLittleEndian : Prop :=
  (∀ b0 b1 b2 b3 : Byte,
    (le32 b0 b1 b2 b3).toNat = b0.toNat + 2 ^ 8 * b1.toNat + 2 ^ 16 * b2.toNat + 2 ^ 24 * b3.toNat ∧
    bytesOfWord (le32 b0 b1 b2 b3) = [b0, b1, b2, b3]) ∧
  (∀ (v : Word) (k : Nat), k < 4 → (byteOf k v).toNat = v.toNat / 2 ^ (8 * k) % 256) ∧
  (∀ v : Word, le32 (byteOf 0 v) (byteOf 1 v) (byteOf 2 v) (byteOf 3 v) = v)

/-- R131 to R134: the four functions, their action on each bit position alone, `|`, `^` and `+` agreeing
between the two terms of F, and the rules' examples. -/
def Obligations.RoundFunctionsActBitwise : Prop :=
  (∀ x y z : Word,
    funF x y z = ((x &&& y) ||| (~~~x &&& z)) ∧ funG x y z = ((x &&& z) ||| (y &&& ~~~z)) ∧
    funH x y z = (x ^^^ y ^^^ z) ∧ funI x y z = (y ^^^ (x ||| ~~~z)) ∧ funG x y z = funF z x y ∧
    funF x y z = ((x &&& y) ^^^ (~~~x &&& z)) ∧ funF x y z = (x &&& y) + (~~~x &&& z)) ∧
  (∀ (x y z : Word) (t : Nat), t < 32 →
    (funF x y z).getLsbD t = (if x.getLsbD t then y.getLsbD t else z.getLsbD t) ∧
    (funG x y z).getLsbD t = (if z.getLsbD t then x.getLsbD t else y.getLsbD t) ∧
    (funH x y z).getLsbD t = ((x.getLsbD t ^^ y.getLsbD t) ^^ z.getLsbD t) ∧
    (funI x y z).getLsbD t = (y.getLsbD t ^^ (x.getLsbD t || !z.getLsbD t))) ∧
  funF 0xEFCDAB89 0x98BADCFE 0x10325476 = 0x98BADCFE ∧
  funG 0xD6819C6A 0x5AA53F75 0x374943A7 = 0x5EA53C72 ∧
  funH 0xA2205F1F 0x1C31C384 0xAE7813DB = 0x10698F40 ∧
  funI 0xCA7D2DBD 0x68D84EA2 0x22A31F54 = 0xB7A5A31D ∧ funI 0 0 0 = 0xFFFFFFFF

/-- R145, R227: the role pattern in closed form, the four roles always distinct, every round starting
at `q = 0`, and the target of an operation being role b of the next. -/
def Obligations.RolePatternRotates : Prop :=
  roles 0 = ⟨0, 1, 2, 3⟩ ∧ roles 1 = ⟨3, 0, 1, 2⟩ ∧ roles 2 = ⟨2, 3, 0, 1⟩ ∧ roles 3 = ⟨1, 2, 3, 0⟩ ∧
  (∀ q : BitVec 2,
    (roles q).target.val = (4 - q.toNat) % 4 ∧ (roles q).b.val = ((roles q).target.val + 1) % 4 ∧
    (roles q).c.val = ((roles q).target.val + 2) % 4 ∧ (roles q).d.val = ((roles q).target.val + 3) % 4 ∧
    [(roles q).target, (roles q).b, (roles q).c, (roles q).d].Nodup) ∧
  (∀ c : BitVec 6, c.toNat % 16 = 0 → quarterOf c = 0) ∧
  (∀ c : BitVec 6, c.toNat < 63 →
    (roles (quarterOf (c + 1))).b = (roles (quarterOf c)).target)

/-- R147: the word-selection table in closed form, and that each round reads each of the sixteen chunk
words exactly once. -/
def Obligations.WordSelectionIsPermutation : Prop :=
  (∀ p : BitVec 4,
    (ksel 0 p).val = p.toNat ∧ (ksel 1 p).val = (5 * p.toNat + 1) % 16 ∧
    (ksel 2 p).val = (3 * p.toNat + 5) % 16 ∧ (ksel 3 p).val = 7 * p.toNat % 16) ∧
  (∀ (rr : BitVec 2) (k : Fin 16), ∃! p : BitVec 4, ksel rr p = k)

/-- R148: the shift table, every entry between 4 and 23. -/
def Obligations.ShiftTable : Prop :=
  ([0, 1, 2, 3].map fun q => (shiftAmount 0 q).val) = [7, 12, 17, 22] ∧
  ([0, 1, 2, 3].map fun q => (shiftAmount 1 q).val) = [5, 9, 14, 20] ∧
  ([0, 1, 2, 3].map fun q => (shiftAmount 2 q).val) = [4, 11, 16, 23] ∧
  ([0, 1, 2, 3].map fun q => (shiftAmount 3 q).val) = [6, 10, 15, 21] ∧
  (∀ (rr : BitVec 2) (q : BitVec 2), 4 ≤ (shiftAmount rr q).val ∧ (shiftAmount rr q).val ≤ 23)

/-- R146: each of the 64 constants is "the integer part of 2^32·|sin(i)|, i in radians", and they are the
literals the rule prints, `T[1]` first. -/
def Obligations.ConstantsAreSines : Prop :=
  (∀ c : BitVec 6, (constT c).toNat = ⌊(2 : ℝ) ^ 32 * |Real.sin ((c.toNat : ℝ) + 1)|⌋₊) ∧
  ((List.range 64).map fun i => constT (BitVec.ofNat 6 i)) =
    [0xD76AA478, 0xE8C7B756, 0x242070DB, 0xC1BDCEEE, 0xF57C0FAF, 0x4787C62A, 0xA8304613, 0xFD469501,
     0x698098D8, 0x8B44F7AF, 0xFFFF5BB1, 0x895CD7BE, 0x6B901122, 0xFD987193, 0xA679438E, 0x49B40821,
     0xF61E2562, 0xC040B340, 0x265E5A51, 0xE9B6C7AA, 0xD62F105D, 0x02441453, 0xD8A1E681, 0xE7D3FBC8,
     0x21E1CDE6, 0xC33707D6, 0xF4D50D87, 0x455A14ED, 0xA9E3E905, 0xFCEFA3F8, 0x676F02D9, 0x8D2A4C8A,
     0xFFFA3942, 0x8771F681, 0x6D9D6122, 0xFDE5380C, 0xA4BEEA44, 0x4BDECFA9, 0xF6BB4B60, 0xBEBFBC70,
     0x289B7EC6, 0xEAA127FA, 0xD4EF3085, 0x04881D05, 0xD9D4D039, 0xE6DB99E5, 0x1FA27CF8, 0xC4AC5665,
     0xF4292244, 0x432AFF97, 0xAB9423A7, 0xFC93A039, 0x655B59C3, 0x8F0CCC92, 0xFFEFF47D, 0x85845DD1,
     0x6FA87E4F, 0xFE2CE6E0, 0xA3014314, 0x4E0811A1, 0xF7537E82, 0xBD3AF235, 0x2AD7D2BB, 0xEB86D391]

/-! ## The round operations (42_round_engine.md) -/

/-- The sixteen rows of the table of 42_round_engine.md R136, as printed there: operation, `i`, target, role b,
role c, role d, `k`, `s`, `T[i]`. -/
def Sys2Proof.Machine.rowsOfRound1 : List RoundRow :=
  [⟨.round1_0, 1, 0, 1, 2, 3, 0, 7, 0xD76AA478⟩,
   ⟨.round1_1, 2, 3, 0, 1, 2, 1, 12, 0xE8C7B756⟩,
   ⟨.round1_2, 3, 2, 3, 0, 1, 2, 17, 0x242070DB⟩,
   ⟨.round1_3, 4, 1, 2, 3, 0, 3, 22, 0xC1BDCEEE⟩,
   ⟨.round1_4, 5, 0, 1, 2, 3, 4, 7, 0xF57C0FAF⟩,
   ⟨.round1_5, 6, 3, 0, 1, 2, 5, 12, 0x4787C62A⟩,
   ⟨.round1_6, 7, 2, 3, 0, 1, 6, 17, 0xA8304613⟩,
   ⟨.round1_7, 8, 1, 2, 3, 0, 7, 22, 0xFD469501⟩,
   ⟨.round1_8, 9, 0, 1, 2, 3, 8, 7, 0x698098D8⟩,
   ⟨.round1_9, 10, 3, 0, 1, 2, 9, 12, 0x8B44F7AF⟩,
   ⟨.round1_10, 11, 2, 3, 0, 1, 10, 17, 0xFFFF5BB1⟩,
   ⟨.round1_11, 12, 1, 2, 3, 0, 11, 22, 0x895CD7BE⟩,
   ⟨.round1_12, 13, 0, 1, 2, 3, 12, 7, 0x6B901122⟩,
   ⟨.round1_13, 14, 3, 0, 1, 2, 13, 12, 0xFD987193⟩,
   ⟨.round1_14, 15, 2, 3, 0, 1, 14, 17, 0xA679438E⟩,
   ⟨.round1_15, 16, 1, 2, 3, 0, 15, 22, 0x49B40821⟩]

/-- The sixteen rows of the table of 42_round_engine.md R137, as printed there: operation, `i`, target, role b,
role c, role d, `k`, `s`, `T[i]`. -/
def Sys2Proof.Machine.rowsOfRound2 : List RoundRow :=
  [⟨.round2_0, 17, 0, 1, 2, 3, 1, 5, 0xF61E2562⟩,
   ⟨.round2_1, 18, 3, 0, 1, 2, 6, 9, 0xC040B340⟩,
   ⟨.round2_2, 19, 2, 3, 0, 1, 11, 14, 0x265E5A51⟩,
   ⟨.round2_3, 20, 1, 2, 3, 0, 0, 20, 0xE9B6C7AA⟩,
   ⟨.round2_4, 21, 0, 1, 2, 3, 5, 5, 0xD62F105D⟩,
   ⟨.round2_5, 22, 3, 0, 1, 2, 10, 9, 0x02441453⟩,
   ⟨.round2_6, 23, 2, 3, 0, 1, 15, 14, 0xD8A1E681⟩,
   ⟨.round2_7, 24, 1, 2, 3, 0, 4, 20, 0xE7D3FBC8⟩,
   ⟨.round2_8, 25, 0, 1, 2, 3, 9, 5, 0x21E1CDE6⟩,
   ⟨.round2_9, 26, 3, 0, 1, 2, 14, 9, 0xC33707D6⟩,
   ⟨.round2_10, 27, 2, 3, 0, 1, 3, 14, 0xF4D50D87⟩,
   ⟨.round2_11, 28, 1, 2, 3, 0, 8, 20, 0x455A14ED⟩,
   ⟨.round2_12, 29, 0, 1, 2, 3, 13, 5, 0xA9E3E905⟩,
   ⟨.round2_13, 30, 3, 0, 1, 2, 2, 9, 0xFCEFA3F8⟩,
   ⟨.round2_14, 31, 2, 3, 0, 1, 7, 14, 0x676F02D9⟩,
   ⟨.round2_15, 32, 1, 2, 3, 0, 12, 20, 0x8D2A4C8A⟩]

/-- The sixteen rows of the table of 42_round_engine.md R138, as printed there: operation, `i`, target, role b,
role c, role d, `k`, `s`, `T[i]`. -/
def Sys2Proof.Machine.rowsOfRound3 : List RoundRow :=
  [⟨.round3_0, 33, 0, 1, 2, 3, 5, 4, 0xFFFA3942⟩,
   ⟨.round3_1, 34, 3, 0, 1, 2, 8, 11, 0x8771F681⟩,
   ⟨.round3_2, 35, 2, 3, 0, 1, 11, 16, 0x6D9D6122⟩,
   ⟨.round3_3, 36, 1, 2, 3, 0, 14, 23, 0xFDE5380C⟩,
   ⟨.round3_4, 37, 0, 1, 2, 3, 1, 4, 0xA4BEEA44⟩,
   ⟨.round3_5, 38, 3, 0, 1, 2, 4, 11, 0x4BDECFA9⟩,
   ⟨.round3_6, 39, 2, 3, 0, 1, 7, 16, 0xF6BB4B60⟩,
   ⟨.round3_7, 40, 1, 2, 3, 0, 10, 23, 0xBEBFBC70⟩,
   ⟨.round3_8, 41, 0, 1, 2, 3, 13, 4, 0x289B7EC6⟩,
   ⟨.round3_9, 42, 3, 0, 1, 2, 0, 11, 0xEAA127FA⟩,
   ⟨.round3_10, 43, 2, 3, 0, 1, 3, 16, 0xD4EF3085⟩,
   ⟨.round3_11, 44, 1, 2, 3, 0, 6, 23, 0x04881D05⟩,
   ⟨.round3_12, 45, 0, 1, 2, 3, 9, 4, 0xD9D4D039⟩,
   ⟨.round3_13, 46, 3, 0, 1, 2, 12, 11, 0xE6DB99E5⟩,
   ⟨.round3_14, 47, 2, 3, 0, 1, 15, 16, 0x1FA27CF8⟩,
   ⟨.round3_15, 48, 1, 2, 3, 0, 2, 23, 0xC4AC5665⟩]

/-- The sixteen rows of the table of 42_round_engine.md R139, as printed there: operation, `i`, target, role b,
role c, role d, `k`, `s`, `T[i]`. -/
def Sys2Proof.Machine.rowsOfRound4 : List RoundRow :=
  [⟨.round4_0, 49, 0, 1, 2, 3, 0, 6, 0xF4292244⟩,
   ⟨.round4_1, 50, 3, 0, 1, 2, 7, 10, 0x432AFF97⟩,
   ⟨.round4_2, 51, 2, 3, 0, 1, 14, 15, 0xAB9423A7⟩,
   ⟨.round4_3, 52, 1, 2, 3, 0, 5, 21, 0xFC93A039⟩,
   ⟨.round4_4, 53, 0, 1, 2, 3, 12, 6, 0x655B59C3⟩,
   ⟨.round4_5, 54, 3, 0, 1, 2, 3, 10, 0x8F0CCC92⟩,
   ⟨.round4_6, 55, 2, 3, 0, 1, 10, 15, 0xFFEFF47D⟩,
   ⟨.round4_7, 56, 1, 2, 3, 0, 1, 21, 0x85845DD1⟩,
   ⟨.round4_8, 57, 0, 1, 2, 3, 8, 6, 0x6FA87E4F⟩,
   ⟨.round4_9, 58, 3, 0, 1, 2, 15, 10, 0xFE2CE6E0⟩,
   ⟨.round4_10, 59, 2, 3, 0, 1, 6, 15, 0xA3014314⟩,
   ⟨.round4_11, 60, 1, 2, 3, 0, 13, 21, 0x4E0811A1⟩,
   ⟨.round4_12, 61, 0, 1, 2, 3, 4, 6, 0xF7537E82⟩,
   ⟨.round4_13, 62, 3, 0, 1, 2, 11, 10, 0xBD3AF235⟩,
   ⟨.round4_14, 63, 2, 3, 0, 1, 2, 15, 0x2AD7D2BB⟩,
   ⟨.round4_15, 64, 1, 2, 3, 0, 9, 21, 0xEB86D391⟩]

/-- R136: `ROUND1 p`, `p = 0..15`, in every state: the row's effect with the function F; and the rule's
worked example. -/
def Obligations.Round1OperationsExecute : Prop :=
  (∀ r ∈ rowsOfRound1, r.op.code.toNat + 1 = r.i ∧ ∀ s : State, exec r.op s = .next (r.effect funF s)) ∧
  (∀ s : State, s.w = #v[0x67452301, 0xEFCDAB89, 0x98BADCFE, 0x10325476] → s.x[0] = 0x00000080 →
    ∃ t, exec .round1_0 s = .next t ∧ t.w = #v[0xA5202774, 0xEFCDAB89, 0x98BADCFE, 0x10325476])

/-- R137: `ROUND2 p`, `p = 0..15`, in every state: the row's effect with the function G; and the rule's
worked example. -/
def Obligations.Round2OperationsExecute : Prop :=
  (∀ r ∈ rowsOfRound2, r.op.code.toNat + 1 = r.i ∧ ∀ s : State, exec r.op s = .next (r.effect funG s)) ∧
  (∀ s : State, s.w = #v[0xF56C7CF1, 0xD6819C6A, 0x5AA53F75, 0x374943A7] → s.x[1] = 0 →
    ∃ t, exec .round2_0 s = .next t ∧ t.w = #v[0x1C7D7513, 0xD6819C6A, 0x5AA53F75, 0x374943A7])

/-- R138: `ROUND3 p`, `p = 0..15`, in every state: the row's effect with the function H; and the rule's
worked example. -/
def Obligations.Round3OperationsExecute : Prop :=
  (∀ r ∈ rowsOfRound3, r.op.code.toNat + 1 = r.i ∧ ∀ s : State, exec r.op s = .next (r.effect funH s)) ∧
  (∀ s : State, s.w = #v[0x13707036, 0xA2205F1F, 0x1C31C384, 0xAE7813DB] → s.x[5] = 0 →
    ∃ t, exec .round3_0 s = .next t ∧ t.w = #v[0xDF63EAA1, 0xA2205F1F, 0x1C31C384, 0xAE7813DB])

/-- R139: `ROUND4 p`, `p = 0..15`, in every state: the row's effect with the function I, `ROUND4 15`
alone leaving `S_ROUND`; and the rule's worked example. -/
def Obligations.Round4OperationsExecute : Prop :=
  (∀ r ∈ rowsOfRound4, r.op.code.toNat + 1 = r.i ∧ ∀ s : State, exec r.op s = .next (r.effect funI s)) ∧
  (∀ s : State, s.w = #v[0x3F55EDFD, 0xCA7D2DBD, 0x68D84EA2, 0x22A31F54] → s.x[0] = 0x00000080 →
    ∃ t, exec .round4_0 s = .next t ∧ t.w = #v[0x93AA2577, 0xCA7D2DBD, 0x68D84EA2, 0x22A31F54])

/-- R135: the step common to the 64 round operations. With `r`, `p`, `q` from the operation index `i`, and
`f` the round's function, `u` is the sum modulo 2^32, `v` is `u` rotated by `s` at width 32, and
`W[rt] <- v +32 W[rb]`; the other three registers stay; `I <- i + 1`, or `PH <- S_FOLD` for `i = 64`.
The register `idx` holds `I − 1`. -/
def Obligations.RoundStepFormula : Prop :=
  ∀ (s : State) (i : Nat), s.ph = .sRound → s.idx.toNat + 1 = i →
    ∀ (r p : Nat) (q : BitVec 2) (f u v : Nat),
      r = (i + 15) / 16 → p = (i - 1) % 16 → q.toNat = (i - 1) % 4 →
      f = ((if r = 1 then funF else if r = 2 then funG else if r = 3 then funH else funI)
        s.w[(roles q).b] s.w[(roles q).c] s.w[(roles q).d]).toNat →
      u = (s.w[(roles q).target].toNat + f +
        s.x[ksel (BitVec.ofNat 2 (r - 1)) (BitVec.ofNat 4 p)].toNat + (constT s.idx).toNat) % 2 ^ 32 →
      v = (u * 2 ^ (shiftAmount (BitVec.ofNat 2 (r - 1)) q).val) % 2 ^ 32 +
        u / 2 ^ (32 - (shiftAmount (BitVec.ofNat 2 (r - 1)) q).val) →
      ∃ t, step s = .next t ∧
        t.w[(roles q).target].toNat = (v + s.w[(roles q).b].toNat) % 2 ^ 32 ∧
        (∀ m : Fin 4, m ≠ (roles q).target → t.w[m] = s.w[m]) ∧
        (i < 64 → t.ph = .sRound ∧ t.idx.toNat + 1 = i + 1) ∧
        (i = 64 → t.ph = .sFold ∧ t.idx = s.idx) ∧
        { s with w := t.w, ph := t.ph, idx := t.idx } = t

/-- R130, R226 (frame of all 64 round operations): one of `W[0..3]`, the target its index selects, may
change, and `I` and `PH`; every other register stays and every byte of every space reads as before. -/
def Obligations.RoundOperationsFrame : Prop :=
  ∀ (rr : BitVec 2) (p : BitVec 4) (s t : State), exec (roundInstr rr p) s = .next t →
    (∀ m : Fin 4, m ≠ (roles (p.extractLsb' 0 2)).target → t.w[m] = s.w[m]) ∧
    t.h = s.h ∧ t.x = s.x ∧ t.j = s.j ∧ t.n = s.n ∧ t.l = s.l ∧ t.maxN = s.maxN ∧
    t.pending = s.pending ∧ t.delivered = s.delivered ∧
    (∀ (sp : Space) (a : Nat), t.readByte sp a = s.readByte sp a)

/-- R150(b): for fixed `X` a round operation loses nothing of `W`: two states that agree on `X` and reach
the same `W` had the same `W`. -/
def Obligations.RoundOperationsAreInjective : Prop :=
  ∀ (rr : BitVec 2) (p : BitVec 4) (s s' t t' : State),
    exec (roundInstr rr p) s = .next t → exec (roundInstr rr p) s' = .next t' →
    s.x = s'.x → t.w = t'.w → s.w = s'.w

/-- R150(b): for fixed `X` the whole map `W ↦ R(W, X)` is a bijection on 4-word tuples. -/
def Obligations.CompressionIsBijective : Prop :=
  ∀ x : Vector Word 16, Function.Bijective fun h => compress h x

/-! ## The StateAccumulator (43_state_accumulator.md) -/

/-- R161: `INIT`, code 0x40, enabled in `S_INIT`; in every state it loads the four constants and changes nothing
else but `PH`; and the constants as little-endian bytes. -/
def Obligations.InitExecutes : Prop :=
  Instr.init.code = 0x40 ∧ (∀ (ph : Phase) (idx : BitVec 6), opcode ph idx = some 0x40 ↔ ph = .sInit) ∧
  (∀ s : State, exec .init s =
    .next { s with h := #v[0x67452301, 0xEFCDAB89, 0x98BADCFE, 0x10325476], ph := .sPad }) ∧
  digestBytes #v[0x67452301, 0xEFCDAB89, 0x98BADCFE, 0x10325476] =
    [0x01, 0x23, 0x45, 0x67, 0x89, 0xAB, 0xCD, 0xEF, 0xFE, 0xDC, 0xBA, 0x98, 0x76, 0x54, 0x32, 0x10]

/-- R160: `SNAP`, code 0x43, enabled in `S_SNAP`; in every state it copies `H` into `W`, sets `I` to 1 and
changes nothing else but `PH`. -/
def Obligations.SnapExecutes : Prop :=
  Instr.snap.code = 0x43 ∧ (∀ (ph : Phase) (idx : BitVec 6), opcode ph idx = some 0x43 ↔ ph = .sSnap) ∧
  (∀ s : State, ∃ t, exec .snap s = .next t ∧
    (∀ m : Fin 4, t.w[m] = s.h[m]) ∧ t.opIndex = 1 ∧ t.ph = .sRound ∧
    { s with w := t.w, idx := t.idx, ph := t.ph } = t)

/-- R163: `FOLD`, code 0x44, enabled in `S_FOLD`; in every state it adds `W` to `H` component-wise modulo
2^32; while `J + 1 < L/64` it goes on with chunk `J + 1`, else `PH <- S_ENCODE`; nothing else changes. And the
rule's worked example. -/
def Obligations.FoldExecutes : Prop :=
  Instr.fold.code = 0x44 ∧ (∀ (ph : Phase) (idx : BitVec 6), opcode ph idx = some 0x44 ↔ ph = .sFold) ∧
  (∀ s : State, ∃ t, exec .fold s = .next t ∧
    (∀ m : Fin 4, t.h[m].toNat = (s.h[m].toNat + s.w[m].toNat) % 2 ^ 32) ∧
    (s.j + 1 < s.l / 64 → t.j = s.j + 1 ∧ t.ph = .sDecode) ∧
    (¬s.j + 1 < s.l / 64 → t.j = s.j ∧ t.ph = .sEncode) ∧
    { s with h := t.h, j := t.j, ph := t.ph } = t) ∧
  (∀ s : State, s.h = #v[0x67452301, 0xEFCDAB89, 0x98BADCFE, 0x10325476] →
    s.w = #v[0x7246FAD3, 0x14E45506, 0xFF4EA3EB, 0x6E10A476] → s.j = 0 → s.l = 64 →
    ∃ t, exec .fold s = .next t ∧ t.h = #v[0xD98C1DD4, 0x04B2008F, 0x980980E9, 0x7E42F8EC] ∧
      t.ph = .sEncode)

/-! ## The Padder (40_padder.md) -/

/-- R100: `PAD`, code 0x41, enabled in `S_PAD`; with a message that is readable it writes, byte by byte, the
message, 0x80, zeros, and the length field `(8·n) mod 2^64`, least significant byte first; and `L`, `J`,
`PH`. And the rule's worked example. -/
def Obligations.PadExecutes : Prop :=
  Instr.pad.code = 0x41 ∧ (∀ (ph : Phase) (idx : BitVec 6), opcode ph idx = some 0x41 ↔ ph = .sPad) ∧
  (∀ s : State, s.AllReadable .msg 0 s.n →
    ∃ t, exec .pad s = .next t ∧
      t.l = 64 * ((s.n + 8) / 64 + 1) ∧ t.j = 0 ∧ t.ph = .sDecode ∧
      (∀ a, a < s.n → t.readByte .pb a = s.readByte .msg a) ∧
      t.readByte .pb s.n = .ok 0x80 ∧
      (∀ a, s.n < a → a + 9 ≤ t.l → t.readByte .pb a = .ok 0) ∧
      (∀ k, k < 8 → t.readByte .pb (t.l - 8 + k) =
        .ok (BitVec.ofNat 8 (8 * s.n % 2 ^ 64 / 2 ^ (8 * k))))) ∧
  (∀ s : State, s.n = 3 → s.readBytes .msg 0 3 = .ok [0x61, 0x62, 0x63] →
    ∃ t, exec .pad s = .next t ∧ t.l = 64 ∧
      t.readBytes .pb 0 64 =
        .ok ([0x61, 0x62, 0x63, 0x80] ++ List.replicate 52 0 ++ [0x18, 0, 0, 0, 0, 0, 0, 0]))

/-- R102: what `PB` holds after `PAD`, the four ranges of the rule covering every address below `L`, the
smallest multiple of 64 that is at least `n + 9`; and no other operation writes `PB`. -/
def Obligations.PaddedBufferHolds : Prop :=
  (∀ s t : State, exec .pad s = .next t →
    t.l % 64 = 0 ∧ s.n + 9 ≤ t.l ∧ (∀ l, l % 64 = 0 → s.n + 9 ≤ l → t.l ≤ l) ∧
    ∀ a, a < t.l →
      t.readByte .pb a =
        if a < s.n then s.readByte .msg a
        else if a = s.n then .ok 0x80
        else if a + 9 ≤ t.l then .ok 0
        else .ok (BitVec.ofNat 8 (8 * s.n % 2 ^ 64 / 2 ^ (8 * (a - (t.l - 8)))))) ∧
  (∀ (i : Instr) (s t : State), i ≠ .pad → exec i s = .next t → t.pb = s.pb ∧ t.l = s.l)

/-- Frame of `PAD` (R55, R100): it writes `PB`, `L`, `J` and `PH`; every other register stays, every byte of
`MSG` and `DG` reads as before, and `PB` has no byte beyond its `L` (log entry 4). -/
def Obligations.PadFrame : Prop :=
  ∀ s t : State, exec .pad s = .next t →
    t.h = s.h ∧ t.w = s.w ∧ t.x = s.x ∧ t.idx = s.idx ∧ t.n = s.n ∧ t.maxN = s.maxN ∧
    t.pending = s.pending ∧ t.delivered = s.delivered ∧
    (∀ a, t.readByte .msg a = s.readByte .msg a) ∧ (∀ a, t.readByte .dg a = s.readByte .dg a) ∧
    (∀ a, (t.pb.get a).isSome = true ↔ a < t.l)

/-- R101: the padded length is the smallest multiple of 64 that is at least `n + 9`, its closed forms agree,
and the number of zero bytes is in 0..63. -/
def Obligations.PaddedLengthIsLeast : Prop :=
  ∀ n : Nat,
    padLen n % 64 = 0 ∧ n + 9 ≤ padLen n ∧ (∀ l, l % 64 = 0 → n + 9 ≤ l → padLen n ≤ l) ∧
    padLen n = 64 * ((n + 9 + 63) / 64) ∧ padLen n = 64 * ((n + 8) / 64 + 1) ∧
    (n % 64 ≤ 55 → padLen n = n + (64 - n % 64)) ∧ (56 ≤ n % 64 → padLen n = n + (128 - n % 64)) ∧
    numChunks n = padLen n / 64 ∧ numChunks n = (n + 8) / 64 + 1 ∧
    (n % 64 ≤ 55 → numChunks n = n / 64 + 1) ∧ (56 ≤ n % 64 → numChunks n = n / 64 + 2) ∧
    padLen n - n - 9 ≤ 63

/-- R105: `L mod 64 = 0` and `9 ≤ L − n ≤ 72`, both bounds reached; and the padding is injective: what `PAD`
leaves in `PB` determines the length and the message. -/
def Obligations.PaddingIsInjective : Prop :=
  (∀ n : Nat, padLen n % 64 = 0 ∧ n + 9 ≤ padLen n ∧ padLen n ≤ n + 72 ∧
    (n % 64 = 55 → padLen n = n + 9) ∧ (n % 64 = 56 → padLen n = n + 72)) ∧
  padLen 55 = 64 ∧ padLen 56 = 128 ∧
  (∀ s s' t t' : State, exec .pad s = .next t → exec .pad s' = .next t' → t.pb = t'.pb →
    s.n = s'.n ∧ ∀ a, a < s.n → s.readByte .msg a = s'.readByte .msg a)

/-! ## The ChunkDecoder (41_chunk_decoder.md) -/

/-- R120: `DECODE`, code 0x42, enabled in `S_DECODE`; with a chunk that is readable word `i` is `le32` of bytes
`64·J + 4·i ..`, and nothing else changes but `PH`. And the rule's worked example. -/
def Obligations.DecodeExecutes : Prop :=
  Instr.decode.code = 0x42 ∧ (∀ (ph : Phase) (idx : BitVec 6), opcode ph idx = some 0x42 ↔ ph = .sDecode) ∧
  (∀ s : State, s.AllReadable .pb (64 * s.j) (64 * s.j + 64) →
    ∃ t, exec .decode s = .next t ∧ { s with x := t.x, ph := .sSnap } = t ∧
      ∀ i : Fin 16, ∃ b0 b1 b2 b3 : Byte,
        s.readByte .pb (64 * s.j + 4 * i) = .ok b0 ∧ s.readByte .pb (64 * s.j + 4 * i + 1) = .ok b1 ∧
        s.readByte .pb (64 * s.j + 4 * i + 2) = .ok b2 ∧ s.readByte .pb (64 * s.j + 4 * i + 3) = .ok b3 ∧
        t.x[i].toNat = b0.toNat + 2 ^ 8 * b1.toNat + 2 ^ 16 * b2.toNat + 2 ^ 24 * b3.toNat) ∧
  (∀ s t : State, s.j = 0 → s.readBytes .pb 0 4 = .ok [0x61, 0x62, 0x63, 0x80] →
    exec .decode s = .next t → t.x[0] = 0x80636261)

/-- R122: the round trip. The bytes of the decoded words are the chunk's 64 bytes; and where the chunk
holds the bytes of a 16-word tuple, `DECODE` gives back the tuple. -/
def Obligations.DecodeRoundTrip : Prop :=
  (∀ s t : State, exec .decode s = .next t → ∀ (i : Fin 16) (k : Nat), k < 4 →
    s.readByte .pb (64 * s.j + 4 * i + k) = .ok (byteOf k t.x[i])) ∧
  (∀ (s : State) (x : Vector Word 16),
    (∀ (i : Fin 16) (k : Nat), k < 4 → s.readByte .pb (64 * s.j + 4 * i + k) = .ok (byteOf k x[i])) →
    ∃ t, exec .decode s = .next t ∧ t.x = x)

/-- R52: word `i` of chunk `j` is the little-endian word of its four bytes, whatever wrote them; decoded after
`PAD`, the last two words of the last chunk are the low and the high word of the length field. -/
def Obligations.LastWordsAreTheLength : Prop :=
  (∀ s t : State, exec .decode s = .next t →
    ∀ i : Fin 16, ∃ b0 b1 b2 b3 : Byte,
      s.readByte .pb (64 * s.j + 4 * i) = .ok b0 ∧ s.readByte .pb (64 * s.j + 4 * i + 1) = .ok b1 ∧
      s.readByte .pb (64 * s.j + 4 * i + 2) = .ok b2 ∧ s.readByte .pb (64 * s.j + 4 * i + 3) = .ok b3 ∧
      t.x[i] = le32 b0 b1 b2 b3) ∧
  (∀ s t u : State, exec .pad s = .next t → exec .decode { t with j := t.l / 64 - 1 } = .next u →
    u.x[14].toNat = 8 * s.n % 2 ^ 32 ∧ u.x[15].toNat = 8 * s.n % 2 ^ 64 / 2 ^ 32)

/-- R36, R57, U6: a read of a byte that has no value, or of an address the space does not have, is a
modelling fault about that space: `PAD` on its message, `DECODE` on its chunk. -/
def Obligations.UnreadableBytesFault : Prop :=
  (∀ (s : State) (a : Nat), a < s.n → s.readable .msg a = false →
    ∃ b, b < s.n ∧ exec .pad s = .fault (.unwritten .msg b)) ∧
  (∀ (s : State) (a : Nat), 64 * s.j ≤ a → a < 64 * s.j + 64 → s.readable .pb a = false →
    ∃ b, 64 * s.j ≤ b ∧ b < 64 * s.j + 64 ∧
      ((b < s.l ∧ exec .decode s = .fault (.unwritten .pb b)) ∨
        (s.l ≤ b ∧ exec .decode s = .fault (.outOfRange .pb b))))

/-! ## The digest encoder (44_digest_encoder.md) -/

/-- R170, R171: `ENCODE`, code 0x45, enabled in `S_ENCODE`; in every state `DG[4m + k] = byte_k(H[m])`,
`PH <- DONE`; decoding `DG` as four little-endian words gives back `H`, and every sixteen bytes are the digest of
some `H`; no other register changes, and every byte but `DG[0..15]` reads as before. And the worked example. -/
def Obligations.EncodeExecutes : Prop :=
  Instr.encode.code = 0x45 ∧ (∀ (ph : Phase) (idx : BitVec 6), opcode ph idx = some 0x45 ↔ ph = .sEncode) ∧
  (∀ bs : List Byte, bs.length = 16 → ∃ h : Vector Word 4, ∀ s : State, s.h = h →
    ∃ t, exec .encode s = .next t ∧ t.readBytes .dg 0 16 = .ok bs) ∧
  (∀ s : State, s.h = #v[0xD98C1DD4, 0x04B2008F, 0x980980E9, 0x7E42F8EC] →
    ∃ t, exec .encode s = .next t ∧ t.readBytes .dg 0 16 =
      .ok [0xD4, 0x1D, 0x8C, 0xD9, 0x8F, 0x00, 0xB2, 0x04, 0xE9, 0x80, 0x09, 0x98, 0xEC, 0xF8, 0x42, 0x7E]) ∧
  ∀ s : State, ∃ t, exec .encode s = .next t ∧ t.ph = .done ∧ { s with dg := t.dg, ph := t.ph } = t ∧
    (∀ (m : Fin 4) (k : Nat), k < 4 →
      ∃ b, t.readByte .dg (4 * m + k) = .ok b ∧ b.toNat = s.h[m].toNat / 2 ^ (8 * k) % 256) ∧
    (∀ m : Fin 4, t.readWord .dg (4 * m) = .ok s.h[m]) ∧
    (∀ (sp : Space) (a : Nat), ¬(sp = .dg ∧ a < 16) → t.readByte sp a = s.readByte sp a) ∧
    (∀ a : Nat, 16 ≤ a → t.dg.get a = s.dg.get a)

/-- Frame of memory for the operations that store nothing (R55: "registers and tables only"; DECODE reads
only): every byte of every space reads as before. -/
def Obligations.RegisterOperationsKeepMemory : Prop :=
  ∀ (i : Instr) (s t : State), i ≠ .pad → i ≠ .encode → exec i s = .next t →
    ∀ (sp : Space) (a : Nat), t.readByte sp a = s.readByte sp a

/-! ## Stepping and the sequencer (45_sequencer_and_host.md) -/

/-- A step runs the decoded operation (R88): where the sequencer state selects a code that decodes to `i`,
the step is `exec i`, and nothing is added around it. -/
def Obligations.StepRunsSelectedOperation : Prop :=
  ∀ (s : State) (c : OpCode) (i : Instr),
    opcode s.ph s.idx = some c → decodeCode c = .ok i → step s = exec i s

/-- `withFetchWord` makes the very next step run the operation whose code is given, and changes only what
selects it, `PH` and `I` (log entry 6). -/
def Obligations.FetchWordSelectsOperation : Prop :=
  ∀ (s : State) (i : Instr),
    step (s.withFetchWord 8 i.code.toNat) = exec i (s.withFetchWord 8 i.code.toNat) ∧
    ∃ (ph : Phase) (idx : BitVec 6), s.withFetchWord 8 i.code.toNat = { s with ph := ph, idx := idx }

/-- R185: the sequencer's transition table: the one code enabled in each phase, and one clause a row for every
step of the core that goes on. -/
def Obligations.SequencerTransitions : Prop :=
  (∀ (ph : Phase) (idx : BitVec 6),
    opcode ph idx =
      match ph with
      | .idle => none
      | .sInit => some 0x40
      | .sPad => some 0x41
      | .sDecode => some 0x42
      | .sSnap => some 0x43
      | .sRound => some (BitVec.ofNat 7 idx.toNat)
      | .sFold => some 0x44
      | .sEncode => some 0x45
      | .done => none) ∧
  ∀ s t : State, step s = .next t →
    (s.ph = .sInit → t.ph = .sPad ∧ t.j = s.j ∧ t.idx = s.idx) ∧
    (s.ph = .sPad → t.ph = .sDecode ∧ t.j = 0 ∧ t.idx = s.idx) ∧
    (s.ph = .sDecode → t.ph = .sSnap ∧ t.j = s.j ∧ t.idx = s.idx) ∧
    (s.ph = .sSnap → t.ph = .sRound ∧ t.j = s.j ∧ t.opIndex = 1) ∧
    (s.ph = .sRound → s.opIndex < 64 → t.ph = .sRound ∧ t.j = s.j ∧ t.opIndex = s.opIndex + 1) ∧
    (s.ph = .sRound → s.opIndex = 64 → t.ph = .sFold ∧ t.j = s.j ∧ t.idx = s.idx) ∧
    (s.ph = .sFold → s.j + 1 < s.l / 64 → t.ph = .sDecode ∧ t.j = s.j + 1 ∧ t.idx = s.idx) ∧
    (s.ph = .sFold → ¬s.j + 1 < s.l / 64 → t.ph = .sEncode ∧ t.j = s.j ∧ t.idx = s.idx) ∧
    (s.ph = .sEncode → t.ph = .done ∧ t.j = s.j ∧ t.idx = s.idx)

/-- R24, R190: no decision depends on a data value. Two states that agree on `PH`, `J`, `I`, `N`, `L` and are
not waiting move to states that agree on them, whatever words and bytes they hold. -/
def Obligations.ControlIgnoresData : Prop :=
  ∀ s s' t t' : State, s.ph.busy = true → step s = .next t → step s' = .next t' →
    s'.ph = s.ph → s'.j = s.j → s'.idx = s.idx → s'.n = s.n → s'.l = s.l →
    t'.ph = t.ph ∧ t'.j = t.j ∧ t'.idx = t.idx ∧ t'.n = t.n ∧ t'.l = t.l

/-- R21, R22, R25, R27, R30: the only writers of each register and space, over all steps. -/
def Obligations.OnlyTheNamedWriters : Prop :=
  ∀ s t : State, step s = .next t →
    (t.h ≠ s.h → s.ph = .sInit ∨ s.ph = .sFold) ∧
    (t.w ≠ s.w → s.ph = .sSnap ∨ s.ph = .sRound) ∧
    (t.x ≠ s.x → s.ph = .sDecode) ∧
    (t.j ≠ s.j → s.ph = .sPad ∨ s.ph = .sFold) ∧
    (t.idx ≠ s.idx → s.ph = .sSnap ∨ s.ph = .sRound) ∧
    (t.l ≠ s.l ∨ t.pb ≠ s.pb → s.ph = .sPad) ∧
    (t.dg ≠ s.dg → s.ph = .sEncode) ∧
    (t.n ≠ s.n ∨ t.msg ≠ s.msg →
      (s.ph = .idle ∨ s.ph = .done) ∧ ∃ m rest, s.pending = .start m :: rest ∧ t.pending = rest) ∧
    t.maxN = s.maxN

/-- At most one agent is enabled (R40, R203): the sequencer selects a code exactly in the busy phases; in
them the host has no move (R181, R182), and in `IDLE` and `DONE` only the host moves. -/
def Obligations.OneAgentIsEnabled : Prop :=
  ∀ s : State,
    (s.ph.busy = true ↔ ∃ c, opcode s.ph s.idx = some c) ∧
    (s.ph.busy = true → s.hostMove = .next s) ∧
    (s.ph.busy = false ↔ s.ph = .idle ∨ s.ph = .done) ∧
    (s.ph.busy = false → step s = s.hostMove)

/-! ## Host transactions -/

/-- R180: `START(m, n)` in `IDLE` or `DONE`, with `n ≤ MAX_N` if that is set: `N <- n`, `MSG <- m`,
`PH <- S_INIT`; all other state of the core stays. That a `START` is taken from the head of the host's transactions
to come, which leaves the rest of them, is the model's choice (log entry 5). -/
def Obligations.StartTakesTheMessage : Prop :=
  ∀ (s : State) (m : List Byte) (rest : List Transaction),
    s.ph = .idle ∨ s.ph = .done → (∀ k, s.maxN = some k → m.length ≤ k) →
    s.pending = .start m :: rest →
    ∃ t, step s = .next t ∧ t.n = m.length ∧ t.ph = .sInit ∧
      (∀ (a : Nat) (h : a < m.length), t.readByte .msg a = .ok m[a]) ∧
      { s with n := t.n, msg := t.msg, ph := t.ph, pending := rest } = t

/-- R181: `START` is not enabled in a busy phase, where the computation goes on as it would with any other
transactions to come and takes none; and not enabled for a message longer than `MAX_N`, where nothing
moves. That a transaction which is not enabled stays to come is the model's choice (log entry 5). -/
def Obligations.StartIsNotEnabled : Prop :=
  (∀ (s t : State) (p : List Transaction), s.ph.busy = true → step s = .next t →
    t.pending = s.pending ∧ step { s with pending := p } = .next { t with pending := p }) ∧
  (∀ (s : State) (m : List Byte) (rest : List Transaction) (k : Nat),
    s.ph = .idle ∨ s.ph = .done → s.maxN = some k → k < m.length → s.pending = .start m :: rest →
    step s = .next s)

/-- R182: `READ` in `DONE` returns `DG[0..15]`, lowest address first, and changes nothing of the core; a
second `READ` returns the same bytes; in `IDLE` it is not enabled and nothing is returned, and in a busy
phase nothing is returned. That a transaction which is not enabled stays to come, and that what is returned is
recorded, are the model's choices (log entry 5). -/
def Obligations.ReadReturnsTheDigest : Prop :=
  (∀ (s : State) (rest : List Transaction), s.ph = .done → s.AllReadable .dg 0 16 →
    s.pending = .read :: rest →
    ∃ (bs : List Byte) (t : State), step s = .next t ∧ t = { s with pending := rest, delivered := s.delivered ++ [bs] } ∧
      bs.length = 16 ∧ ∀ (a : Nat) (h : a < bs.length), s.readByte .dg a = .ok bs[a]) ∧
  (∀ (s t u : State) (rest : List Transaction), s.ph = .done → s.pending = .read :: .read :: rest →
    step s = .next t → step t = .next u →
    ∃ bs, t.delivered = s.delivered ++ [bs] ∧ u.delivered = s.delivered ++ [bs, bs]) ∧
  (∀ (s : State) (rest : List Transaction), s.ph = .idle → s.pending = .read :: rest →
    step s = .next s) ∧
  (∀ s t : State, s.ph.busy = true → step s = .next t → t.delivered = s.delivered)

/-- R213: the core is either waiting for the host, in `IDLE` and `DONE`, or running; waiting has no architectural
effect and keeps all state. -/
def Obligations.WaitingKeepsAllState : Prop :=
  (∀ s : State, (s.ph = .idle ∨ s.ph = .done) ∨ s.ph.busy = true) ∧
  (∀ s : State, s.ph = .idle ∨ s.ph = .done → s.pending = [] → step s = .next s)

/-! ## Reset (70_reset_and_hazards.md) -/

/-- R35, R36, R220: after reset `PH = IDLE` and no byte of `MSG`, `PB`, `DG` holds a value; the state meets
the invariant. What the registers hold at reset is the model's choice (log entry 1), and nothing is said
of it here. -/
def Obligations.ResetState : Prop :=
  State.reset.ph = .idle ∧
  (∀ (sp : Space) (a : Nat), (State.reset.cells sp).get a = none ∧ State.reset.readable sp a = false) ∧
  State.reset.memWf = true ∧ State.reset.Inv

/-- R224: a reset in any state gives the state of reset and abandons the run. What the registers hold then is the
model's choice (log entry 1), and so is reset as an operation beside the step (log entry 14). -/
def Obligations.ResetAbandonsTheRun : Prop :=
  ∀ s : State, s.resetInput.ph = .idle ∧ s.resetInput.Inv ∧
    s.resetInput = { State.reset with maxN := s.maxN, pending := s.pending, delivered := s.delivered }

/-! ## Invariants of every step -/

/-- Every step keeps the three memories in their canonical form. -/
def Obligations.StepKeepsMemoryCanonical : Prop :=
  ∀ s t : State, s.memWf = true → step s = .next t → t.memWf = true

/-- Every step from a state that meets the invariant goes on and keeps it: no fault, no refusal (R200, R57,
R222). -/
def Obligations.StepKeepsInvariantAndNeverStops : Prop :=
  ∀ s : State, s.Inv → ∃ t, step s = .next t ∧ t.Inv

/-- No step of any state is a refusal, since the sequencer selects no reserved code (R86); and a step that
faults is one whose operation reads memory, `PAD`, `DECODE` or the host's READ (R55, R200). -/
def Obligations.StopsAreMemoryReads : Prop :=
  (∀ (s : State) (r : Refusal), step s ≠ .refused r) ∧
  (∀ (s : State) (e : Fault), step s = .fault e →
    s.ph = .sPad ∨ s.ph = .sDecode ∨ (s.ph = .done ∧ ∃ rest, s.pending = .read :: rest))

/-- R41: the live state decides. Two states in the same busy phase that agree on the live state of that
phase step alike, to states that agree on the live state of the next. -/
def Obligations.LiveStateDecides : Prop :=
  ∀ s s' t : State, s.Inv → s.ph.busy = true → s.LiveEq s' → step s = .next t →
    ∃ t', step s' = .next t' ∧ t.LiveEq t'

/-! ## Runs -/

/-- R162, R165: one turn of the chunk loop. From `S_DECODE` the chunk is decoded, `H` is snapshot and kept
through the 64 round operations, and `H <- h +32 R(h, x)` component-wise, after 67 operations; `R(h, x)` is what
the 64 operations, `SNAP` before them, leave in `W`. -/
def Obligations.ChunkTurnFoldsTheCompression : Prop :=
  (∀ s : State, s.ph = .sSnap →
    ∃ t, run 65 s = .next t ∧ t.ph = .sFold ∧ t.w = compress s.h s.x ∧ t.h = s.h ∧ t.x = s.x ∧ t.j = s.j ∧
      t.l = s.l ∧ t.n = s.n) ∧
  (∀ s : State, s.Inv → s.ph = .sDecode →
    ∃ (u t : State), step s = .next u ∧ run 67 s = .next t ∧
      (∀ m : Fin 4, t.h[m] = s.h[m] + (compress s.h u.x)[m]) ∧ t.x = u.x ∧
      (s.j + 1 < s.l / 64 → t.ph = .sDecode ∧ t.j = s.j + 1) ∧ (s.j + 1 = s.l / 64 → t.ph = .sEncode))

/-- R222: from reset, whatever the host's transactions and the instance's `MAX_N`, no step of any run stops: no
operation reads a byte that has no value. It rests on the state after reset, which the model completes (log
entry 1), and on the host's side (log entry 5). -/
def Obligations.NoRunFromResetStops : Prop :=
  ∀ (maxN : Option Nat) (transactions : List Transaction) (k : Nat),
    ∃ t, run k { State.reset with maxN := maxN, pending := transactions } = .next t ∧ t.Inv

/-- R191: from `S_INIT` with its message there, the run reaches `DONE` in `3 + 67·NCH` operations and not
before, `64·NCH` of them round operations; 70 operations for `n ≤ 55`, 137 for `56 ≤ n ≤ 119`. -/
def Obligations.RunReachesDone : Prop :=
  (∀ s : State, s.Inv → s.ph = .sInit →
    (∃ t, run (3 + 67 * numChunks s.n) s = .next t ∧ t.ph = .done) ∧
    (∀ k, k < runLength s.n → ∃ t, run k s = .next t ∧ t.ph.busy = true) ∧
    ((trace (runLength s.n) s).filter fun c => decide (c.toNat < 0x40)).length = 64 * numChunks s.n) ∧
  (∀ n : Nat, (n ≤ 55 → runLength n = 70) ∧ (56 ≤ n → n ≤ 119 → runLength n = 137))

/-- R190: the operation codes of the run are those of the schedule, in order: `40 41`, then for each of the
`NCH` chunks `42 43 00 01 … 3F 44`, then `45`. They depend on `n` only. -/
def Obligations.RunFollowsTheSchedule : Prop :=
  ∀ s : State, s.Inv → s.ph = .sInit →
    trace (runLength s.n) s = (schedule s.n).map Instr.code ∧
    (trace (runLength s.n) s).map (fun c => c.toNat) =
      [0x40, 0x41] ++
        (List.replicate ((s.n + 8) / 64 + 1) ([0x42, 0x43] ++ List.range 64 ++ [0x44])).flatten ++ [0x45]

/-- R195: after `START(m, n)` and the run to `DONE`, `READ` returns `digest(m, n)`, from every state in which
`START` is enabled, whatever it holds (R32, R186, R188). That the two transactions are the head of the host's list,
that the rest of it is left, and that what `READ` returns is recorded are the model's choices (log entry 5). -/
def Obligations.ReadReturnsDigestOfMessage : Prop :=
  ∀ (s : State) (m : List Byte) (rest : List Transaction),
    s.ph = .idle ∨ s.ph = .done → (∀ k, s.maxN = some k → m.length ≤ k) →
    s.pending = .start m :: .read :: rest →
    ∃ t, run (1 + runLength m.length + 1) s = .next t ∧
      t.delivered = s.delivered ++ [digest m] ∧ t.pending = rest ∧ t.ph = .done

/-- R187: in the state at the end of a run `H` holds the final state, `N` and `L` the message's lengths,
`J = L/64 − 1` and `I = 64`. That the run's `START` is taken from the head of the host's transactions to come is the
model's choice (log entry 5). -/
def Obligations.EndOfRunRegisters : Prop :=
  ∀ (s : State) (m : List Byte) (rest : List Transaction),
    s.ph = .idle ∨ s.ph = .done → (∀ k, s.maxN = some k → m.length ≤ k) →
    s.pending = .start m :: rest →
    ∃ t, run (1 + runLength m.length) s = .next t ∧ t.ph = .done ∧
      t.readDigest = .ok (digest m) ∧ t.h = hashAfter m (numChunks m.length) ∧
      t.n = m.length ∧ t.l = padLen m.length ∧ t.j = t.l / 64 - 1 ∧
      t.opIndex = 64

/-! ## Several cores (60_exceptions.md) -/

/-- R211: cores share no mutable state: a step of one leaves every other as it is, and steps of two
different cores give the same system in either order. Which core moves is the caller's choice (log entry 17). -/
def Obligations.CoresAreIndependent : Prop :=
  (∀ (k : Nat) (cs cs' : Cores), Cores.stepAt k cs = .next cs' →
    cs'.length = cs.length ∧ ∀ i : Nat, i ≠ k → cs'[i]? = cs[i]?) ∧
  (∀ (k l : Nat) (cs a ab : Cores), k ≠ l → Cores.stepAt k cs = .next a → Cores.stepAt l a = .next ab →
    ∃ b, Cores.stepAt l cs = .next b ∧ Cores.stepAt k b = .next ab)
end

