-- ==== Sys2Proof/Laws/Memory.lean ====
section
/-! SUPPORT. Memories as lists of cells: what is read after a write, and that every operation keeps the
canonical form (20_memory.md R61; log entry 2). -/

namespace Sys2Proof.Machine

/-! ### Read after write -/

theorem Memory.get_set_same (m : Memory) (a : Nat) (v : Byte) : (m.set a v).get a = some v := by
  induction m with
  | nil => simp [Memory.set, Memory.get]
  | cons c m ih =>
    obtain ⟨b, u⟩ := c
    simp only [Memory.set]
    split
    · simp [Memory.get]
    · split
      · simp [Memory.get]
      · next h => simp [Memory.get, h, ih]

theorem Memory.get_set_other (m : Memory) {a b : Nat} (v : Byte) (h : b ≠ a) :
    (m.set a v).get b = m.get b := by
  induction m with
  | nil => simp [Memory.set, Memory.get, h]
  | cons c m ih =>
    obtain ⟨c, u⟩ := c
    simp only [Memory.set]
    split
    · simp [Memory.get, h]
    · split
      · next hac => subst hac; simp [Memory.get, h]
      · simp [Memory.get, ih]

theorem Memory.get_setBytes (m : Memory) (a : Nat) (vs : List Byte) (b : Nat) :
    (m.setBytes a vs).get b = if a ≤ b ∧ b < a + vs.length then vs[b - a]? else m.get b := by
  induction vs generalizing m a with
  | nil => simp [Memory.setBytes]
  | cons v vs ih =>
    rw [Memory.setBytes, ih]
    by_cases hb : b = a
    · subst hb
      simp [Memory.get_set_same]
    · rw [Memory.get_set_other _ _ hb]
      by_cases h : a + 1 ≤ b ∧ b < a + 1 + vs.length
      · have h' : a ≤ b ∧ b < a + (v :: vs).length := by simp; omega
        have e : b - a = (b - (a + 1)) + 1 := by omega
        simp only [h, h', if_true, and_self, e, List.getElem?_cons_succ]
      · have h' : ¬(a ≤ b ∧ b < a + (v :: vs).length) := by simp; omega
        simp only [h, h', if_false]

theorem Memory.get_ofBytes (a : Nat) (vs : List Byte) (b : Nat) :
    (Memory.ofBytes a vs).get b = if a ≤ b then vs[b - a]? else none := by
  induction vs generalizing a with
  | nil => simp [Memory.ofBytes, Memory.get]
  | cons v vs ih =>
    by_cases hb : b = a
    · subst hb; simp [Memory.ofBytes, Memory.get]
    · simp only [Memory.ofBytes, Memory.get, hb, if_false, ih]
      by_cases h : a + 1 ≤ b
      · have e : b - a = (b - (a + 1)) + 1 := by omega
        have h' : a ≤ b := by omega
        simp only [h, h', if_true, e, List.getElem?_cons_succ]
      · have h' : ¬a ≤ b := by omega
        simp only [h, h', if_false]

/-! ### The canonical form -/

theorem Memory.risingFrom_mono {lo lo' : Nat} {m : Memory} (h : m.risingFrom lo' = true) (hl : lo ≤ lo') :
    m.risingFrom lo = true := by
  cases m with
  | nil => rfl
  | cons c m =>
    simp only [Memory.risingFrom, Bool.and_eq_true, decide_eq_true_eq] at h ⊢
    exact ⟨by omega, h.2⟩

theorem Memory.risingFrom_set {lo a : Nat} {m : Memory} (v : Byte) (h : m.risingFrom lo = true)
    (ha : lo ≤ a) : (m.set a v).risingFrom lo = true := by
  induction m generalizing lo with
  | nil => simp [Memory.set, Memory.risingFrom, ha]
  | cons c m ih =>
    obtain ⟨b, u⟩ := c
    simp only [Memory.risingFrom, Bool.and_eq_true, decide_eq_true_eq] at h
    simp only [Memory.set]
    split
    · next hab => simp only [Memory.risingFrom, Bool.and_eq_true, decide_eq_true_eq]; exact ⟨ha, hab, h.2⟩
    · split
      · next hab => subst hab; simpa [Memory.risingFrom] using ⟨ha, h.2⟩
      · have hlt : b + 1 ≤ a := by omega
        simpa [Memory.risingFrom] using ⟨h.1, ih h.2 hlt⟩

/-- Writing a byte keeps the canonical form. -/
theorem Memory.wf_set {m : Memory} (a : Nat) (v : Byte) (h : m.wf = true) : (m.set a v).wf = true :=
  Memory.risingFrom_set v h (Nat.zero_le a)

/-- Writing bytes keeps the canonical form. -/
theorem Memory.wf_setBytes {m : Memory} (a : Nat) (vs : List Byte) (h : m.wf = true) :
    (m.setBytes a vs).wf = true := by
  induction vs generalizing m a with
  | nil => exact h
  | cons v vs ih => exact ih (a + 1) (Memory.wf_set a v h)

theorem Memory.risingFrom_ofBytes (a : Nat) (vs : List Byte) : (Memory.ofBytes a vs).risingFrom a = true := by
  induction vs generalizing a with
  | nil => rfl
  | cons v vs ih => simpa [Memory.ofBytes, Memory.risingFrom] using ih (a + 1)

/-- A space that holds exactly the given bytes has the canonical form. -/
theorem Memory.wf_ofBytes (a : Nat) (vs : List Byte) : (Memory.ofBytes a vs).wf = true :=
  Memory.risingFrom_mono (Memory.risingFrom_ofBytes a vs) (Nat.zero_le a)

/-- The memories of the reset state have the canonical form. -/
theorem State.reset_memories_wf :
    State.reset.msg.wf = true ∧ State.reset.pb.wf = true ∧ State.reset.dg.wf = true := by
  decide

end Sys2Proof.Machine
end

