-- ==== Sys2Proof/Laws/State.lean ====
section
/-! SUPPORT. One lemma per field per update of `State`, so that no proof unfolds a record update. -/

namespace Sys2Proof.Machine

/-! `setPh` -/

@[simp] theorem State.setPh_ph (s : State) (v : Phase) : (s.setPh v).ph = v := rfl
@[simp] theorem State.setPh_j (s : State) (v : Phase) : (s.setPh v).j = s.j := rfl
@[simp] theorem State.setPh_idx (s : State) (v : Phase) : (s.setPh v).idx = s.idx := rfl
@[simp] theorem State.setPh_n (s : State) (v : Phase) : (s.setPh v).n = s.n := rfl
@[simp] theorem State.setPh_l (s : State) (v : Phase) : (s.setPh v).l = s.l := rfl
@[simp] theorem State.setPh_h (s : State) (v : Phase) : (s.setPh v).h = s.h := rfl
@[simp] theorem State.setPh_w (s : State) (v : Phase) : (s.setPh v).w = s.w := rfl
@[simp] theorem State.setPh_x (s : State) (v : Phase) : (s.setPh v).x = s.x := rfl
@[simp] theorem State.setPh_msg (s : State) (v : Phase) : (s.setPh v).msg = s.msg := rfl
@[simp] theorem State.setPh_pb (s : State) (v : Phase) : (s.setPh v).pb = s.pb := rfl
@[simp] theorem State.setPh_dg (s : State) (v : Phase) : (s.setPh v).dg = s.dg := rfl
@[simp] theorem State.setPh_maxN (s : State) (v : Phase) : (s.setPh v).maxN = s.maxN := rfl
@[simp] theorem State.setPh_pending (s : State) (v : Phase) : (s.setPh v).pending = s.pending := rfl
@[simp] theorem State.setPh_delivered (s : State) (v : Phase) : (s.setPh v).delivered = s.delivered := rfl

/-! `setJ` -/

@[simp] theorem State.setJ_ph (s : State) (v : Nat) : (s.setJ v).ph = s.ph := rfl
@[simp] theorem State.setJ_j (s : State) (v : Nat) : (s.setJ v).j = v := rfl
@[simp] theorem State.setJ_idx (s : State) (v : Nat) : (s.setJ v).idx = s.idx := rfl
@[simp] theorem State.setJ_n (s : State) (v : Nat) : (s.setJ v).n = s.n := rfl
@[simp] theorem State.setJ_l (s : State) (v : Nat) : (s.setJ v).l = s.l := rfl
@[simp] theorem State.setJ_h (s : State) (v : Nat) : (s.setJ v).h = s.h := rfl
@[simp] theorem State.setJ_w (s : State) (v : Nat) : (s.setJ v).w = s.w := rfl
@[simp] theorem State.setJ_x (s : State) (v : Nat) : (s.setJ v).x = s.x := rfl
@[simp] theorem State.setJ_msg (s : State) (v : Nat) : (s.setJ v).msg = s.msg := rfl
@[simp] theorem State.setJ_pb (s : State) (v : Nat) : (s.setJ v).pb = s.pb := rfl
@[simp] theorem State.setJ_dg (s : State) (v : Nat) : (s.setJ v).dg = s.dg := rfl
@[simp] theorem State.setJ_maxN (s : State) (v : Nat) : (s.setJ v).maxN = s.maxN := rfl
@[simp] theorem State.setJ_pending (s : State) (v : Nat) : (s.setJ v).pending = s.pending := rfl
@[simp] theorem State.setJ_delivered (s : State) (v : Nat) : (s.setJ v).delivered = s.delivered := rfl

/-! `setIdx` -/

@[simp] theorem State.setIdx_ph (s : State) (v : BitVec 6) : (s.setIdx v).ph = s.ph := rfl
@[simp] theorem State.setIdx_j (s : State) (v : BitVec 6) : (s.setIdx v).j = s.j := rfl
@[simp] theorem State.setIdx_idx (s : State) (v : BitVec 6) : (s.setIdx v).idx = v := rfl
@[simp] theorem State.setIdx_n (s : State) (v : BitVec 6) : (s.setIdx v).n = s.n := rfl
@[simp] theorem State.setIdx_l (s : State) (v : BitVec 6) : (s.setIdx v).l = s.l := rfl
@[simp] theorem State.setIdx_h (s : State) (v : BitVec 6) : (s.setIdx v).h = s.h := rfl
@[simp] theorem State.setIdx_w (s : State) (v : BitVec 6) : (s.setIdx v).w = s.w := rfl
@[simp] theorem State.setIdx_x (s : State) (v : BitVec 6) : (s.setIdx v).x = s.x := rfl
@[simp] theorem State.setIdx_msg (s : State) (v : BitVec 6) : (s.setIdx v).msg = s.msg := rfl
@[simp] theorem State.setIdx_pb (s : State) (v : BitVec 6) : (s.setIdx v).pb = s.pb := rfl
@[simp] theorem State.setIdx_dg (s : State) (v : BitVec 6) : (s.setIdx v).dg = s.dg := rfl
@[simp] theorem State.setIdx_maxN (s : State) (v : BitVec 6) : (s.setIdx v).maxN = s.maxN := rfl
@[simp] theorem State.setIdx_pending (s : State) (v : BitVec 6) : (s.setIdx v).pending = s.pending := rfl
@[simp] theorem State.setIdx_delivered (s : State) (v : BitVec 6) : (s.setIdx v).delivered = s.delivered := rfl

/-! `setN` -/

@[simp] theorem State.setN_ph (s : State) (v : Nat) : (s.setN v).ph = s.ph := rfl
@[simp] theorem State.setN_j (s : State) (v : Nat) : (s.setN v).j = s.j := rfl
@[simp] theorem State.setN_idx (s : State) (v : Nat) : (s.setN v).idx = s.idx := rfl
@[simp] theorem State.setN_n (s : State) (v : Nat) : (s.setN v).n = v := rfl
@[simp] theorem State.setN_l (s : State) (v : Nat) : (s.setN v).l = s.l := rfl
@[simp] theorem State.setN_h (s : State) (v : Nat) : (s.setN v).h = s.h := rfl
@[simp] theorem State.setN_w (s : State) (v : Nat) : (s.setN v).w = s.w := rfl
@[simp] theorem State.setN_x (s : State) (v : Nat) : (s.setN v).x = s.x := rfl
@[simp] theorem State.setN_msg (s : State) (v : Nat) : (s.setN v).msg = s.msg := rfl
@[simp] theorem State.setN_pb (s : State) (v : Nat) : (s.setN v).pb = s.pb := rfl
@[simp] theorem State.setN_dg (s : State) (v : Nat) : (s.setN v).dg = s.dg := rfl
@[simp] theorem State.setN_maxN (s : State) (v : Nat) : (s.setN v).maxN = s.maxN := rfl
@[simp] theorem State.setN_pending (s : State) (v : Nat) : (s.setN v).pending = s.pending := rfl
@[simp] theorem State.setN_delivered (s : State) (v : Nat) : (s.setN v).delivered = s.delivered := rfl

/-! `setL` -/

@[simp] theorem State.setL_ph (s : State) (v : Nat) : (s.setL v).ph = s.ph := rfl
@[simp] theorem State.setL_j (s : State) (v : Nat) : (s.setL v).j = s.j := rfl
@[simp] theorem State.setL_idx (s : State) (v : Nat) : (s.setL v).idx = s.idx := rfl
@[simp] theorem State.setL_n (s : State) (v : Nat) : (s.setL v).n = s.n := rfl
@[simp] theorem State.setL_l (s : State) (v : Nat) : (s.setL v).l = v := rfl
@[simp] theorem State.setL_h (s : State) (v : Nat) : (s.setL v).h = s.h := rfl
@[simp] theorem State.setL_w (s : State) (v : Nat) : (s.setL v).w = s.w := rfl
@[simp] theorem State.setL_x (s : State) (v : Nat) : (s.setL v).x = s.x := rfl
@[simp] theorem State.setL_msg (s : State) (v : Nat) : (s.setL v).msg = s.msg := rfl
@[simp] theorem State.setL_pb (s : State) (v : Nat) : (s.setL v).pb = s.pb := rfl
@[simp] theorem State.setL_dg (s : State) (v : Nat) : (s.setL v).dg = s.dg := rfl
@[simp] theorem State.setL_maxN (s : State) (v : Nat) : (s.setL v).maxN = s.maxN := rfl
@[simp] theorem State.setL_pending (s : State) (v : Nat) : (s.setL v).pending = s.pending := rfl
@[simp] theorem State.setL_delivered (s : State) (v : Nat) : (s.setL v).delivered = s.delivered := rfl

/-! `setH` -/

@[simp] theorem State.setH_ph (s : State) (v : Vector Word 4) : (s.setH v).ph = s.ph := rfl
@[simp] theorem State.setH_j (s : State) (v : Vector Word 4) : (s.setH v).j = s.j := rfl
@[simp] theorem State.setH_idx (s : State) (v : Vector Word 4) : (s.setH v).idx = s.idx := rfl
@[simp] theorem State.setH_n (s : State) (v : Vector Word 4) : (s.setH v).n = s.n := rfl
@[simp] theorem State.setH_l (s : State) (v : Vector Word 4) : (s.setH v).l = s.l := rfl
@[simp] theorem State.setH_h (s : State) (v : Vector Word 4) : (s.setH v).h = v := rfl
@[simp] theorem State.setH_w (s : State) (v : Vector Word 4) : (s.setH v).w = s.w := rfl
@[simp] theorem State.setH_x (s : State) (v : Vector Word 4) : (s.setH v).x = s.x := rfl
@[simp] theorem State.setH_msg (s : State) (v : Vector Word 4) : (s.setH v).msg = s.msg := rfl
@[simp] theorem State.setH_pb (s : State) (v : Vector Word 4) : (s.setH v).pb = s.pb := rfl
@[simp] theorem State.setH_dg (s : State) (v : Vector Word 4) : (s.setH v).dg = s.dg := rfl
@[simp] theorem State.setH_maxN (s : State) (v : Vector Word 4) : (s.setH v).maxN = s.maxN := rfl
@[simp] theorem State.setH_pending (s : State) (v : Vector Word 4) : (s.setH v).pending = s.pending := rfl
@[simp] theorem State.setH_delivered (s : State) (v : Vector Word 4) : (s.setH v).delivered = s.delivered := rfl

/-! `setW` -/

@[simp] theorem State.setW_ph (s : State) (v : Vector Word 4) : (s.setW v).ph = s.ph := rfl
@[simp] theorem State.setW_j (s : State) (v : Vector Word 4) : (s.setW v).j = s.j := rfl
@[simp] theorem State.setW_idx (s : State) (v : Vector Word 4) : (s.setW v).idx = s.idx := rfl
@[simp] theorem State.setW_n (s : State) (v : Vector Word 4) : (s.setW v).n = s.n := rfl
@[simp] theorem State.setW_l (s : State) (v : Vector Word 4) : (s.setW v).l = s.l := rfl
@[simp] theorem State.setW_h (s : State) (v : Vector Word 4) : (s.setW v).h = s.h := rfl
@[simp] theorem State.setW_w (s : State) (v : Vector Word 4) : (s.setW v).w = v := rfl
@[simp] theorem State.setW_x (s : State) (v : Vector Word 4) : (s.setW v).x = s.x := rfl
@[simp] theorem State.setW_msg (s : State) (v : Vector Word 4) : (s.setW v).msg = s.msg := rfl
@[simp] theorem State.setW_pb (s : State) (v : Vector Word 4) : (s.setW v).pb = s.pb := rfl
@[simp] theorem State.setW_dg (s : State) (v : Vector Word 4) : (s.setW v).dg = s.dg := rfl
@[simp] theorem State.setW_maxN (s : State) (v : Vector Word 4) : (s.setW v).maxN = s.maxN := rfl
@[simp] theorem State.setW_pending (s : State) (v : Vector Word 4) : (s.setW v).pending = s.pending := rfl
@[simp] theorem State.setW_delivered (s : State) (v : Vector Word 4) : (s.setW v).delivered = s.delivered := rfl

/-! `setX` -/

@[simp] theorem State.setX_ph (s : State) (v : Vector Word 16) : (s.setX v).ph = s.ph := rfl
@[simp] theorem State.setX_j (s : State) (v : Vector Word 16) : (s.setX v).j = s.j := rfl
@[simp] theorem State.setX_idx (s : State) (v : Vector Word 16) : (s.setX v).idx = s.idx := rfl
@[simp] theorem State.setX_n (s : State) (v : Vector Word 16) : (s.setX v).n = s.n := rfl
@[simp] theorem State.setX_l (s : State) (v : Vector Word 16) : (s.setX v).l = s.l := rfl
@[simp] theorem State.setX_h (s : State) (v : Vector Word 16) : (s.setX v).h = s.h := rfl
@[simp] theorem State.setX_w (s : State) (v : Vector Word 16) : (s.setX v).w = s.w := rfl
@[simp] theorem State.setX_x (s : State) (v : Vector Word 16) : (s.setX v).x = v := rfl
@[simp] theorem State.setX_msg (s : State) (v : Vector Word 16) : (s.setX v).msg = s.msg := rfl
@[simp] theorem State.setX_pb (s : State) (v : Vector Word 16) : (s.setX v).pb = s.pb := rfl
@[simp] theorem State.setX_dg (s : State) (v : Vector Word 16) : (s.setX v).dg = s.dg := rfl
@[simp] theorem State.setX_maxN (s : State) (v : Vector Word 16) : (s.setX v).maxN = s.maxN := rfl
@[simp] theorem State.setX_pending (s : State) (v : Vector Word 16) : (s.setX v).pending = s.pending := rfl
@[simp] theorem State.setX_delivered (s : State) (v : Vector Word 16) : (s.setX v).delivered = s.delivered := rfl

/-! `setMsg` -/

@[simp] theorem State.setMsg_ph (s : State) (v : Memory) : (s.setMsg v).ph = s.ph := rfl
@[simp] theorem State.setMsg_j (s : State) (v : Memory) : (s.setMsg v).j = s.j := rfl
@[simp] theorem State.setMsg_idx (s : State) (v : Memory) : (s.setMsg v).idx = s.idx := rfl
@[simp] theorem State.setMsg_n (s : State) (v : Memory) : (s.setMsg v).n = s.n := rfl
@[simp] theorem State.setMsg_l (s : State) (v : Memory) : (s.setMsg v).l = s.l := rfl
@[simp] theorem State.setMsg_h (s : State) (v : Memory) : (s.setMsg v).h = s.h := rfl
@[simp] theorem State.setMsg_w (s : State) (v : Memory) : (s.setMsg v).w = s.w := rfl
@[simp] theorem State.setMsg_x (s : State) (v : Memory) : (s.setMsg v).x = s.x := rfl
@[simp] theorem State.setMsg_msg (s : State) (v : Memory) : (s.setMsg v).msg = v := rfl
@[simp] theorem State.setMsg_pb (s : State) (v : Memory) : (s.setMsg v).pb = s.pb := rfl
@[simp] theorem State.setMsg_dg (s : State) (v : Memory) : (s.setMsg v).dg = s.dg := rfl
@[simp] theorem State.setMsg_maxN (s : State) (v : Memory) : (s.setMsg v).maxN = s.maxN := rfl
@[simp] theorem State.setMsg_pending (s : State) (v : Memory) : (s.setMsg v).pending = s.pending := rfl
@[simp] theorem State.setMsg_delivered (s : State) (v : Memory) : (s.setMsg v).delivered = s.delivered := rfl

/-! `setPb` -/

@[simp] theorem State.setPb_ph (s : State) (v : Memory) : (s.setPb v).ph = s.ph := rfl
@[simp] theorem State.setPb_j (s : State) (v : Memory) : (s.setPb v).j = s.j := rfl
@[simp] theorem State.setPb_idx (s : State) (v : Memory) : (s.setPb v).idx = s.idx := rfl
@[simp] theorem State.setPb_n (s : State) (v : Memory) : (s.setPb v).n = s.n := rfl
@[simp] theorem State.setPb_l (s : State) (v : Memory) : (s.setPb v).l = s.l := rfl
@[simp] theorem State.setPb_h (s : State) (v : Memory) : (s.setPb v).h = s.h := rfl
@[simp] theorem State.setPb_w (s : State) (v : Memory) : (s.setPb v).w = s.w := rfl
@[simp] theorem State.setPb_x (s : State) (v : Memory) : (s.setPb v).x = s.x := rfl
@[simp] theorem State.setPb_msg (s : State) (v : Memory) : (s.setPb v).msg = s.msg := rfl
@[simp] theorem State.setPb_pb (s : State) (v : Memory) : (s.setPb v).pb = v := rfl
@[simp] theorem State.setPb_dg (s : State) (v : Memory) : (s.setPb v).dg = s.dg := rfl
@[simp] theorem State.setPb_maxN (s : State) (v : Memory) : (s.setPb v).maxN = s.maxN := rfl
@[simp] theorem State.setPb_pending (s : State) (v : Memory) : (s.setPb v).pending = s.pending := rfl
@[simp] theorem State.setPb_delivered (s : State) (v : Memory) : (s.setPb v).delivered = s.delivered := rfl

/-! `setDg` -/

@[simp] theorem State.setDg_ph (s : State) (v : Memory) : (s.setDg v).ph = s.ph := rfl
@[simp] theorem State.setDg_j (s : State) (v : Memory) : (s.setDg v).j = s.j := rfl
@[simp] theorem State.setDg_idx (s : State) (v : Memory) : (s.setDg v).idx = s.idx := rfl
@[simp] theorem State.setDg_n (s : State) (v : Memory) : (s.setDg v).n = s.n := rfl
@[simp] theorem State.setDg_l (s : State) (v : Memory) : (s.setDg v).l = s.l := rfl
@[simp] theorem State.setDg_h (s : State) (v : Memory) : (s.setDg v).h = s.h := rfl
@[simp] theorem State.setDg_w (s : State) (v : Memory) : (s.setDg v).w = s.w := rfl
@[simp] theorem State.setDg_x (s : State) (v : Memory) : (s.setDg v).x = s.x := rfl
@[simp] theorem State.setDg_msg (s : State) (v : Memory) : (s.setDg v).msg = s.msg := rfl
@[simp] theorem State.setDg_pb (s : State) (v : Memory) : (s.setDg v).pb = s.pb := rfl
@[simp] theorem State.setDg_dg (s : State) (v : Memory) : (s.setDg v).dg = v := rfl
@[simp] theorem State.setDg_maxN (s : State) (v : Memory) : (s.setDg v).maxN = s.maxN := rfl
@[simp] theorem State.setDg_pending (s : State) (v : Memory) : (s.setDg v).pending = s.pending := rfl
@[simp] theorem State.setDg_delivered (s : State) (v : Memory) : (s.setDg v).delivered = s.delivered := rfl

/-! `setMaxN` -/

@[simp] theorem State.setMaxN_ph (s : State) (v : Option Nat) : (s.setMaxN v).ph = s.ph := rfl
@[simp] theorem State.setMaxN_j (s : State) (v : Option Nat) : (s.setMaxN v).j = s.j := rfl
@[simp] theorem State.setMaxN_idx (s : State) (v : Option Nat) : (s.setMaxN v).idx = s.idx := rfl
@[simp] theorem State.setMaxN_n (s : State) (v : Option Nat) : (s.setMaxN v).n = s.n := rfl
@[simp] theorem State.setMaxN_l (s : State) (v : Option Nat) : (s.setMaxN v).l = s.l := rfl
@[simp] theorem State.setMaxN_h (s : State) (v : Option Nat) : (s.setMaxN v).h = s.h := rfl
@[simp] theorem State.setMaxN_w (s : State) (v : Option Nat) : (s.setMaxN v).w = s.w := rfl
@[simp] theorem State.setMaxN_x (s : State) (v : Option Nat) : (s.setMaxN v).x = s.x := rfl
@[simp] theorem State.setMaxN_msg (s : State) (v : Option Nat) : (s.setMaxN v).msg = s.msg := rfl
@[simp] theorem State.setMaxN_pb (s : State) (v : Option Nat) : (s.setMaxN v).pb = s.pb := rfl
@[simp] theorem State.setMaxN_dg (s : State) (v : Option Nat) : (s.setMaxN v).dg = s.dg := rfl
@[simp] theorem State.setMaxN_maxN (s : State) (v : Option Nat) : (s.setMaxN v).maxN = v := rfl
@[simp] theorem State.setMaxN_pending (s : State) (v : Option Nat) : (s.setMaxN v).pending = s.pending := rfl
@[simp] theorem State.setMaxN_delivered (s : State) (v : Option Nat) : (s.setMaxN v).delivered = s.delivered := rfl

/-! `setPending` -/

@[simp] theorem State.setPending_ph (s : State) (v : List Transaction) : (s.setPending v).ph = s.ph := rfl
@[simp] theorem State.setPending_j (s : State) (v : List Transaction) : (s.setPending v).j = s.j := rfl
@[simp] theorem State.setPending_idx (s : State) (v : List Transaction) : (s.setPending v).idx = s.idx := rfl
@[simp] theorem State.setPending_n (s : State) (v : List Transaction) : (s.setPending v).n = s.n := rfl
@[simp] theorem State.setPending_l (s : State) (v : List Transaction) : (s.setPending v).l = s.l := rfl
@[simp] theorem State.setPending_h (s : State) (v : List Transaction) : (s.setPending v).h = s.h := rfl
@[simp] theorem State.setPending_w (s : State) (v : List Transaction) : (s.setPending v).w = s.w := rfl
@[simp] theorem State.setPending_x (s : State) (v : List Transaction) : (s.setPending v).x = s.x := rfl
@[simp] theorem State.setPending_msg (s : State) (v : List Transaction) : (s.setPending v).msg = s.msg := rfl
@[simp] theorem State.setPending_pb (s : State) (v : List Transaction) : (s.setPending v).pb = s.pb := rfl
@[simp] theorem State.setPending_dg (s : State) (v : List Transaction) : (s.setPending v).dg = s.dg := rfl
@[simp] theorem State.setPending_maxN (s : State) (v : List Transaction) : (s.setPending v).maxN = s.maxN := rfl
@[simp] theorem State.setPending_pending (s : State) (v : List Transaction) : (s.setPending v).pending = v := rfl
@[simp] theorem State.setPending_delivered (s : State) (v : List Transaction) : (s.setPending v).delivered = s.delivered := rfl

/-! `setDelivered` -/

@[simp] theorem State.setDelivered_ph (s : State) (v : List (List Byte)) : (s.setDelivered v).ph = s.ph := rfl
@[simp] theorem State.setDelivered_j (s : State) (v : List (List Byte)) : (s.setDelivered v).j = s.j := rfl
@[simp] theorem State.setDelivered_idx (s : State) (v : List (List Byte)) : (s.setDelivered v).idx = s.idx := rfl
@[simp] theorem State.setDelivered_n (s : State) (v : List (List Byte)) : (s.setDelivered v).n = s.n := rfl
@[simp] theorem State.setDelivered_l (s : State) (v : List (List Byte)) : (s.setDelivered v).l = s.l := rfl
@[simp] theorem State.setDelivered_h (s : State) (v : List (List Byte)) : (s.setDelivered v).h = s.h := rfl
@[simp] theorem State.setDelivered_w (s : State) (v : List (List Byte)) : (s.setDelivered v).w = s.w := rfl
@[simp] theorem State.setDelivered_x (s : State) (v : List (List Byte)) : (s.setDelivered v).x = s.x := rfl
@[simp] theorem State.setDelivered_msg (s : State) (v : List (List Byte)) : (s.setDelivered v).msg = s.msg := rfl
@[simp] theorem State.setDelivered_pb (s : State) (v : List (List Byte)) : (s.setDelivered v).pb = s.pb := rfl
@[simp] theorem State.setDelivered_dg (s : State) (v : List (List Byte)) : (s.setDelivered v).dg = s.dg := rfl
@[simp] theorem State.setDelivered_maxN (s : State) (v : List (List Byte)) : (s.setDelivered v).maxN = s.maxN := rfl
@[simp] theorem State.setDelivered_pending (s : State) (v : List (List Byte)) : (s.setDelivered v).pending = s.pending := rfl
@[simp] theorem State.setDelivered_delivered (s : State) (v : List (List Byte)) : (s.setDelivered v).delivered = v := rfl

/-! Sizes and contents of the spaces depend on `N`, `L` and the three memories only. -/

theorem State.readByte_congr {s t : State} {sp : Space} (hs : t.size sp = s.size sp)
    (hc : t.cells sp = s.cells sp) (a : Nat) : t.readByte sp a = s.readByte sp a := by
  simp only [State.readByte, hs, hc]

/-- A state with the same `N`, `L`, `MSG`, `PB`, `DG` reads the same everywhere. -/
theorem State.readByte_of_same {s t : State} (hn : t.n = s.n) (hl : t.l = s.l) (hm : t.msg = s.msg)
    (hp : t.pb = s.pb) (hd : t.dg = s.dg) (sp : Space) (a : Nat) :
    t.readByte sp a = s.readByte sp a := by
  apply State.readByte_congr
  · cases sp <;> simp [State.size, hn, hl]
  · cases sp <;> simp [State.cells, hm, hp, hd]

end Sys2Proof.Machine
end

