-- ==== Sys2Proof/Laws/Reads.lean ====
section
/-! SUPPORT. What the shared read operations answer (00_scope.md R8 `MemRead`, 20_memory.md R50, R57). -/

namespace Sys2Proof.Machine

/-! ### One byte -/

/-- A read answers a byte exactly when the address is in the space and the byte is listed. -/
theorem State.readByte_ok {s : State} {sp : Space} {a : Nat} {v : Byte} :
    s.readByte sp a = .ok v ↔ a < s.size sp ∧ (s.cells sp).get a = some v := by
  unfold State.readByte
  split
  · next h => cases hg : (s.cells sp).get a <;> simp [h]
  · next h => simp [h]

/-- An address outside the space has no behaviour (R57). -/
theorem State.readByte_outOfRange {s : State} {sp : Space} {a : Nat} (h : s.size sp ≤ a) :
    s.readByte sp a = .error (.outOfRange sp a) := by
  have : ¬a < s.size sp := by omega
  simp [State.readByte, this]

/-- A byte that nothing has written has no value (10_state.md R36). -/
theorem State.readByte_unwritten {s : State} {sp : Space} {a : Nat} (h : a < s.size sp)
    (hg : (s.cells sp).get a = none) : s.readByte sp a = .error (.unwritten sp a) := by
  simp [State.readByte, h, hg]

theorem State.readable_iff {s : State} {sp : Space} {a : Nat} :
    s.readable sp a = true ↔ ∃ v, s.readByte sp a = .ok v := by
  unfold State.readable
  cases s.readByte sp a <;> simp

/-- `Except` values that are not answers are errors. -/
theorem State.not_readable {s : State} {sp : Space} {a : Nat} (h : s.readable sp a = false) :
    ∃ e, s.readByte sp a = .error e := by
  unfold State.readable at h
  cases hr : s.readByte sp a <;> simp_all

/-! ### Several bytes -/

/-- A read of `k` bytes answers `vs` exactly when there are `k` and each is what its address reads as. -/
theorem State.readBytes_ok {s : State} {sp : Space} {a k : Nat} {vs : List Byte} :
    s.readBytes sp a k = .ok vs ↔
      vs.length = k ∧ ∀ i (h : i < vs.length), s.readByte sp (a + i) = .ok vs[i] := by
  induction k generalizing a vs with
  | zero =>
    simp only [State.readBytes, Except.ok.injEq]
    constructor
    · rintro rfl; simp
    · rintro ⟨h, -⟩; exact (List.length_eq_zero_iff.mp h).symm
  | succ k ih =>
    cases vs with
    | nil =>
      simp only [State.readBytes]
      cases s.readByte sp a with
      | error e => simp
      | ok v => cases s.readBytes sp (a + 1) k <;> simp
    | cons v vs =>
      simp only [State.readBytes]
      constructor
      · intro h
        cases hv : s.readByte sp a with
        | error e => simp [hv] at h
        | ok u =>
          cases hvs : s.readBytes sp (a + 1) k with
          | error e => simp [hv, hvs] at h
          | ok us =>
            simp only [hv, hvs, Except.ok.injEq, List.cons.injEq] at h
            obtain ⟨rfl, rfl⟩ := h
            obtain ⟨hl, hi⟩ := ih.mp hvs
            refine ⟨by simp [hl], fun i h => ?_⟩
            cases i with
            | zero => simpa using hv
            | succ i =>
              have e : a + (i + 1) = a + 1 + i := by omega
              simpa [e] using hi i (by simpa using h)
      · rintro ⟨hl, hi⟩
        have hv : s.readByte sp a = .ok v := hi 0 (by simp)
        have hvs : s.readBytes sp (a + 1) k = .ok vs := by
          refine ih.mpr ⟨by simpa using hl, fun i h => ?_⟩
          have e : a + (i + 1) = a + 1 + i := by omega
          exact e ▸ hi (i + 1) (by simpa using h)
        simp [hv, hvs]

/-- A read of `k` bytes answers as soon as every address reads. -/
theorem State.readBytes_exists {s : State} {sp : Space} {a k : Nat}
    (h : ∀ i, i < k → s.readable sp (a + i) = true) : ∃ vs, s.readBytes sp a k = .ok vs := by
  induction k generalizing a with
  | zero => exact ⟨[], rfl⟩
  | succ k ih =>
    obtain ⟨v, hv⟩ := State.readable_iff.mp (h 0 (by omega))
    obtain ⟨vs, hvs⟩ := ih (a := a + 1) (fun i hi => by
      have e : a + (i + 1) = a + 1 + i := by omega
      simpa [e] using h (i + 1) (by omega))
    exact ⟨v :: vs, by simp only [State.readBytes]; simp_all⟩

/-- Two states that read the same bytes answer the same. -/
theorem State.readBytes_congr {s t : State} {sp : Space} {a k : Nat}
    (h : ∀ i, i < k → t.readByte sp (a + i) = s.readByte sp (a + i)) :
    t.readBytes sp a k = s.readBytes sp a k := by
  induction k generalizing a with
  | zero => rfl
  | succ k ih =>
    have h0 : t.readByte sp a = s.readByte sp a := by simpa using h 0 (by omega)
    have hs : t.readBytes sp (a + 1) k = s.readBytes sp (a + 1) k := ih (fun i hi => by
      have e : a + 1 + i = a + (i + 1) := by omega
      simpa [e] using h (i + 1) (by omega))
    simp only [State.readBytes, h0, hs]

/-! ### Words -/

/-- A word read answers exactly when its four bytes read, and it is their `le32` (R50, R52). -/
theorem State.readWord_ok {s : State} {sp : Space} {a : Nat} {v : Word} :
    s.readWord sp a = .ok v ↔
      ∃ b0 b1 b2 b3, s.readByte sp a = .ok b0 ∧ s.readByte sp (a + 1) = .ok b1 ∧
        s.readByte sp (a + 2) = .ok b2 ∧ s.readByte sp (a + 3) = .ok b3 ∧ v = le32 b0 b1 b2 b3 := by
  unfold State.readWord
  cases s.readByte sp a <;> cases s.readByte sp (a + 1) <;> cases s.readByte sp (a + 2) <;>
    cases s.readByte sp (a + 3) <;> simp [eq_comm]

/-- A read of `k` words answers `ws` exactly when each is what its address reads as. -/
theorem State.readWords_ok {s : State} {sp : Space} {a k : Nat} {ws : Vector Word k} :
    s.readWords sp a k = .ok ws ↔ ∀ i (h : i < k), s.readWord sp (a + 4 * i) = .ok ws[i] := by
  induction k with
  | zero =>
    simp only [State.readWords, Except.ok.injEq]
    constructor
    · intro _ i h; omega
    · intro _; exact Vector.ext fun i h => by omega
  | succ k ih =>
    simp only [State.readWords]
    constructor
    · intro h
      cases hw : s.readWords sp a k with
      | error e => simp [hw] at h
      | ok us =>
        cases hv : s.readWord sp (a + 4 * k) with
        | error e => simp [hw, hv] at h
        | ok v =>
          simp only [hw, hv, Except.ok.injEq] at h
          subst h
          intro i hi
          by_cases hik : i < k
          · simpa [Vector.getElem_push, hik] using ih.mp hw i hik
          · obtain rfl : i = k := by omega
            simpa using hv
    · intro h
      have hw : s.readWords sp a k = .ok ws.pop := ih.mpr fun i hi => by
        simpa using h i (by omega)
      have hv := h k (by omega)
      simp only [hw, hv, Except.ok.injEq]
      apply Vector.ext
      intro i hi
      by_cases hik : i < k
      · simp [hik]
      · obtain rfl : i = k := by omega
        simp

/-- A read of `k` words answers as soon as every byte reads. -/
theorem State.readWords_exists {s : State} {sp : Space} {a k : Nat}
    (h : ∀ i, i < 4 * k → s.readable sp (a + i) = true) : ∃ ws, s.readWords sp a k = .ok ws := by
  induction k with
  | zero => exact ⟨#v[], rfl⟩
  | succ k ih =>
    obtain ⟨ws, hws⟩ := ih fun i hi => h i (by omega)
    obtain ⟨b0, h0⟩ := State.readable_iff.mp (h (4 * k) (by omega))
    obtain ⟨b1, h1⟩ := State.readable_iff.mp (h (4 * k + 1) (by omega))
    obtain ⟨b2, h2⟩ := State.readable_iff.mp (h (4 * k + 2) (by omega))
    obtain ⟨b3, h3⟩ := State.readable_iff.mp (h (4 * k + 3) (by omega))
    have hw : s.readWord sp (a + 4 * k) = .ok (le32 b0 b1 b2 b3) :=
      State.readWord_ok.mpr ⟨b0, b1, b2, b3, h0, h1, h2, h3, rfl⟩
    exact ⟨ws.push (le32 b0 b1 b2 b3), by simp [State.readWords, hws, hw]⟩

/-! ### Going on after a read -/

/-- Everything `andThen` can answer with a next state. -/
theorem andThen_next {α : Type} {r : Except Fault α} {k : α → State} {t : State} :
    andThen r k = .next t ↔ ∃ v, r = .ok v ∧ t = k v := by
  unfold andThen
  cases r <;> simp [eq_comm]

/-- A read never ends in a refusal. -/
theorem andThen_not_refused {α : Type} {r : Except Fault α} {k : α → State} {e : Refusal} :
    andThen r k ≠ .refused e := by
  unfold andThen
  cases r <;> simp

end Sys2Proof.Machine
end

