-- ==== Sys2Proof/Laws/Meanings.lean ====
section
/-! SUPPORT. What each meaning can answer, said once, and what a step does in each phase. -/

namespace Sys2Proof.Machine

/-! ### The shared part of the round operations (42_round_engine.md R135) -/

/-- The fields a round operation leaves alone, and the two it moves. -/
theorem State.advance_cases (s : State) (c : BitVec 6) :
    (c.toNat < 63 ∧ s.advance c = s.setIdx (c + 1)) ∨ (c = 63 ∧ s.advance c = s.setPh .sFold) := by
  unfold State.advance
  split
  · next h => exact .inl ⟨h, rfl⟩
  · next h =>
    have h64 : c.toNat < 64 := c.isLt
    exact .inr ⟨BitVec.eq_of_toNat_eq (by simp; omega), rfl⟩

/-- A round operation writes `W` by `roundWords` and moves `I` or `PH`; nothing else (R130). -/
theorem State.roundOp_spec (s : State) (c : BitVec 6) :
    s.roundOp c =
      { s with
        w := roundWords c s.w s.x
        idx := if c.toNat < 63 then c + 1 else s.idx
        ph := if c.toNat < 63 then s.ph else .sFold } := by
  unfold State.roundOp State.advance
  split <;> rfl

@[simp] theorem State.roundOp_j (s : State) (c : BitVec 6) : (s.roundOp c).j = s.j := by simp [State.roundOp_spec]
@[simp] theorem State.roundOp_n (s : State) (c : BitVec 6) : (s.roundOp c).n = s.n := by simp [State.roundOp_spec]
@[simp] theorem State.roundOp_l (s : State) (c : BitVec 6) : (s.roundOp c).l = s.l := by simp [State.roundOp_spec]
@[simp] theorem State.roundOp_h (s : State) (c : BitVec 6) : (s.roundOp c).h = s.h := by simp [State.roundOp_spec]
@[simp] theorem State.roundOp_x (s : State) (c : BitVec 6) : (s.roundOp c).x = s.x := by simp [State.roundOp_spec]
@[simp] theorem State.roundOp_msg (s : State) (c : BitVec 6) : (s.roundOp c).msg = s.msg := by simp [State.roundOp_spec]
@[simp] theorem State.roundOp_pb (s : State) (c : BitVec 6) : (s.roundOp c).pb = s.pb := by simp [State.roundOp_spec]
@[simp] theorem State.roundOp_dg (s : State) (c : BitVec 6) : (s.roundOp c).dg = s.dg := by simp [State.roundOp_spec]
@[simp] theorem State.roundOp_maxN (s : State) (c : BitVec 6) : (s.roundOp c).maxN = s.maxN := by simp [State.roundOp_spec]
@[simp] theorem State.roundOp_pending (s : State) (c : BitVec 6) : (s.roundOp c).pending = s.pending := by simp [State.roundOp_spec]
@[simp] theorem State.roundOp_delivered (s : State) (c : BitVec 6) : (s.roundOp c).delivered = s.delivered := by simp [State.roundOp_spec]
@[simp] theorem State.roundOp_w (s : State) (c : BitVec 6) : (s.roundOp c).w = roundWords c s.w s.x := by simp [State.roundOp_spec]

/-- The arm of the round operation at a 6-bit code is the common step at that code. -/
theorem exec_roundInstr (rr : BitVec 2) (p : BitVec 4) (s : State) :
    exec (roundInstr rr p) s = .next (s.roundOp (rr ++ p)) := by
  obtain ⟨rr⟩ := rr
  obtain ⟨p⟩ := p
  fin_cases rr <;> fin_cases p <;> rfl

/-! ### The sequencing operations -/

/-- All `PAD` can answer with a next state (40_padder.md R100). -/
theorem execPad_next {s t : State} :
    execPad s = .next t ↔
      ∃ m, s.readBytes .msg 0 s.n = .ok m ∧
        t = { s with pb := Memory.ofBytes 0 (padBytes m), l := padLen s.n, j := 0, ph := .sDecode } :=
  andThen_next

/-- All `DECODE` can answer with a next state (41_chunk_decoder.md R120). -/
theorem execDecode_next {s t : State} :
    execDecode s = .next t ↔
      ∃ x, s.readWords .pb (64 * s.j) 16 = .ok x ∧ t = { s with x := x, ph := .sSnap } :=
  andThen_next

/-- `INIT` always answers this state (43_state_accumulator.md R161). -/
theorem execInit_next {s t : State} : execInit s = .next t ↔ t = { s with h := iv, ph := .sPad } := by
  unfold execInit
  rw [Host.Outcome.next.injEq, eq_comm]
  rfl

/-- `SNAP` always answers this state (R160). -/
theorem execSnap_next {s t : State} :
    execSnap s = .next t ↔ t = { s with w := s.h, idx := 0, ph := .sRound } := by
  unfold execSnap
  rw [Host.Outcome.next.injEq, eq_comm]
  rfl

/-- `ENCODE` always answers this state (44_digest_encoder.md R170). -/
theorem execEncode_next {s t : State} :
    execEncode s = .next t ↔
      t = { s with dg := s.dg.setBytes 0 (digestBytes s.h), ph := .done } := by
  unfold execEncode
  rw [Host.Outcome.next.injEq, eq_comm]
  rfl

/-- How `FOLD` moves the sequencer (43_state_accumulator.md R163). -/
theorem State.nextChunk_cases (s : State) :
    (s.j + 1 < s.l / 64 ∧ s.nextChunk = { s with j := s.j + 1, ph := .sDecode }) ∨
      (¬s.j + 1 < s.l / 64 ∧ s.nextChunk = { s with ph := .sEncode }) := by
  unfold State.nextChunk
  split
  · next h => exact .inl ⟨h, rfl⟩
  · next h => exact .inr ⟨h, rfl⟩

/-- All `FOLD` can answer (R163). -/
theorem execFold_cases (s : State) :
    (s.j + 1 < s.l / 64 ∧
        execFold s = .next { s with h := addWords s.h s.w, j := s.j + 1, ph := .sDecode }) ∨
      (¬s.j + 1 < s.l / 64 ∧ execFold s = .next { s with h := addWords s.h s.w, ph := .sEncode }) := by
  unfold execFold
  rcases State.nextChunk_cases (s.setH (addWords s.h s.w)) with ⟨h, e⟩ | ⟨h, e⟩ <;> rw [e]
  · exact .inl ⟨h, rfl⟩
  · exact .inr ⟨h, rfl⟩

/-! ### Which operation a phase selects -/

/-- A 6-bit code is a round and a position in it (30_encoding.md R82). -/
theorem roundCode_split (c : BitVec 6) : roundOf c ++ posOf c = c := by
  revert c
  decide

/-- The operation code of a round operation names the round operation at its index (R81, R84). -/
theorem decodeCode_round (c : BitVec 6) :
    decodeCode (c.setWidth 7) = .ok (roundInstr (roundOf c) (posOf c)) := by
  revert c
  decide

/-- What a step does, phase by phase: this is all it can do (10_state.md R26, 30_encoding.md R88). -/
theorem step_by_phase (s : State) :
    step s =
      match s.ph with
      | .idle => s.hostMove
      | .sInit => execInit s
      | .sPad => execPad s
      | .sDecode => execDecode s
      | .sSnap => execSnap s
      | .sRound => .next (s.roundOp s.idx)
      | .sFold => execFold s
      | .sEncode => execEncode s
      | .done => s.hostMove := by
  unfold step
  cases s.ph <;> try rfl
  simp only [opcode, stepCode, decodeCode_round, exec_roundInstr, roundCode_split]

/-! ### The host's moves -/

/-- With no transaction to come, waiting keeps all state (60_exceptions.md R213). -/
theorem State.hostMove_nil {s : State} (h : s.pending = []) : s.hostMove = .next s := by
  simp [State.hostMove, h]

/-- START takes place exactly when it is enabled (45_sequencer_and_host.md R180, R181). -/
theorem State.hostMove_start {s : State} {m : List Byte} {rest : List Transaction}
    (h : s.pending = .start m :: rest) :
    s.hostMove = .next (if s.startEnabled m then (s.start m).setPending rest else s) := by
  simp only [State.hostMove, h]
  split <;> simp_all

/-- READ takes place exactly when it is enabled (R182). -/
theorem State.hostMove_read {s : State} {rest : List Transaction} (h : s.pending = .read :: rest) :
    s.hostMove =
      if s.ph = .done then
        andThen s.readDigest fun bs => (s.setDelivered (s.delivered ++ [bs])).setPending rest
      else .next s := by
  simp [State.hostMove, h, State.readEnabled]

/-- The host's move never ends in a refusal. -/
theorem State.hostMove_not_refused {s : State} {e : Refusal} : s.hostMove ≠ .refused e := by
  unfold State.hostMove
  cases s.pending with
  | nil => simp
  | cons tr rest =>
    cases tr with
    | start m => simp only; split <;> simp
    | read => simp only; split <;> simp [andThen_not_refused]

end Sys2Proof.Machine
end

