-- ==== Sys2Proof/Laws/Padding.lean ====
section
/-! SUPPORT. What the padded message holds, range by range (40_padder.md R101, R102), and what the
digest's bytes are (44_digest_encoder.md R171). -/

namespace Sys2Proof.Machine

/-- `L ≥ n + 9` (R101). -/
theorem padLen_ge (n : Nat) : n + 9 ≤ padLen n := by
  unfold padLen; omega

/-- `L/64` is the number of chunks (R101). -/
theorem padLen_div (n : Nat) : padLen n / 64 = numChunks n := by
  unfold padLen numChunks; omega

@[simp] theorem lengthBytes_length (n : Nat) : (lengthBytes n).length = 8 := by
  simp [lengthBytes]

/-- Byte `k` of the length field (R103). -/
theorem lengthBytes_getElem (n k : Nat) (h : k < (lengthBytes n).length) :
    (lengthBytes n)[k] = byteOf k (lengthField n) := by
  simp [lengthBytes]

/-- The padded message has `L` bytes (R100). -/
@[simp] theorem padBytes_length (m : List Byte) : (padBytes m).length = padLen m.length := by
  have := padLen_ge m.length
  simp only [padBytes, List.length_append, List.length_cons, List.length_replicate, lengthBytes_length]
  omega

/-- The message stands unchanged at `0 .. n−1` (R102). -/
theorem padBytes_message (m : List Byte) (a : Nat) (h : a < m.length) :
    (padBytes m)[a]? = m[a]? := by
  simp only [padBytes, List.getElem?_append_left h]

/-- The byte 0x80 stands at `n` (R102). -/
theorem padBytes_marker (m : List Byte) : (padBytes m)[m.length]? = some 0x80 := by
  simp [padBytes]

/-- Zeros stand at `n+1 .. L−9` (R102). -/
theorem padBytes_zero (m : List Byte) (a : Nat) (h : m.length < a) (h' : a + 9 ≤ padLen m.length) :
    (padBytes m)[a]? = some 0 := by
  obtain ⟨k, rfl⟩ : ∃ k, a = m.length + (k + 1) := ⟨a - m.length - 1, by omega⟩
  have hk : k < padLen m.length - m.length - 9 := by omega
  have hk' : k < (List.replicate (padLen m.length - m.length - 9) (0 : Byte)).length := by simpa using hk
  simp only [padBytes, List.getElem?_append_right (Nat.le_add_right _ _), Nat.add_sub_cancel_left,
    List.getElem?_cons_succ, List.getElem?_append_left hk', List.getElem?_replicate, hk, if_true]

/-- The length field stands at `L−8 .. L−1` (R102, R103). -/
theorem padBytes_lengthField (m : List Byte) (k : Nat) (h : k < 8) :
    (padBytes m)[padLen m.length - 8 + k]? = some (byteOf k (lengthField m.length)) := by
  have hge := padLen_ge m.length
  have e : padLen m.length - 8 + k = m.length + ((padLen m.length - m.length - 9 + k) + 1) := by omega
  have hr : (List.replicate (padLen m.length - m.length - 9) (0 : Byte)).length ≤
      padLen m.length - m.length - 9 + k := by simp
  have hk : k < (lengthBytes m.length).length := by simpa using h
  rw [e]
  simp only [padBytes, List.getElem?_append_right (Nat.le_add_right _ _), Nat.add_sub_cancel_left,
    List.getElem?_cons_succ, List.getElem?_append_right hr, List.length_replicate]
  rw [List.getElem?_eq_getElem hk, lengthBytes_getElem]

/-! ### The digest's bytes (44_digest_encoder.md R170, R171) -/

@[simp] theorem digestBytes_length (h : Vector Word 4) : (digestBytes h).length = 16 := rfl

/-- Byte `4m + k` of the digest is byte `k` of `H[m]` (R171). -/
theorem digestBytes_getElem? (h : Vector Word 4) (m : Fin 4) (k : Fin 4) :
    (digestBytes h)[4 * m.val + k.val]? = some (byteOf k.val h[m]) := by
  fin_cases m <;> fin_cases k <;> rfl

end Sys2Proof.Machine
end

