-- ==== Sys2Proof/Laws/PerInstr.lean ====
section
/-! SUPPORT. Statements for all instructions, made per instruction. `CodeDefined`: an instruction is
well formed, its code is one of 0x00..0x45, and it encodes to one byte (30_encoding.md R81, R83, R87). -/

namespace Sys2Proof.Laws.CodeDefined

/-- The family's statement about an instruction as syntax. -/
def Statement (i : Instr) : Prop :=
  i.wf = true ∧ codeDefined i.code = true ∧ (encode i).length = 1

theorem round1_0 : Statement .round1_0 := by unfold Statement; decide
theorem round1_1 : Statement .round1_1 := by unfold Statement; decide
theorem round1_2 : Statement .round1_2 := by unfold Statement; decide
theorem round1_3 : Statement .round1_3 := by unfold Statement; decide
theorem round1_4 : Statement .round1_4 := by unfold Statement; decide
theorem round1_5 : Statement .round1_5 := by unfold Statement; decide
theorem round1_6 : Statement .round1_6 := by unfold Statement; decide
theorem round1_7 : Statement .round1_7 := by unfold Statement; decide
theorem round1_8 : Statement .round1_8 := by unfold Statement; decide
theorem round1_9 : Statement .round1_9 := by unfold Statement; decide
theorem round1_10 : Statement .round1_10 := by unfold Statement; decide
theorem round1_11 : Statement .round1_11 := by unfold Statement; decide
theorem round1_12 : Statement .round1_12 := by unfold Statement; decide
theorem round1_13 : Statement .round1_13 := by unfold Statement; decide
theorem round1_14 : Statement .round1_14 := by unfold Statement; decide
theorem round1_15 : Statement .round1_15 := by unfold Statement; decide
theorem round2_0 : Statement .round2_0 := by unfold Statement; decide
theorem round2_1 : Statement .round2_1 := by unfold Statement; decide
theorem round2_2 : Statement .round2_2 := by unfold Statement; decide
theorem round2_3 : Statement .round2_3 := by unfold Statement; decide
theorem round2_4 : Statement .round2_4 := by unfold Statement; decide
theorem round2_5 : Statement .round2_5 := by unfold Statement; decide
theorem round2_6 : Statement .round2_6 := by unfold Statement; decide
theorem round2_7 : Statement .round2_7 := by unfold Statement; decide
theorem round2_8 : Statement .round2_8 := by unfold Statement; decide
theorem round2_9 : Statement .round2_9 := by unfold Statement; decide
theorem round2_10 : Statement .round2_10 := by unfold Statement; decide
theorem round2_11 : Statement .round2_11 := by unfold Statement; decide
theorem round2_12 : Statement .round2_12 := by unfold Statement; decide
theorem round2_13 : Statement .round2_13 := by unfold Statement; decide
theorem round2_14 : Statement .round2_14 := by unfold Statement; decide
theorem round2_15 : Statement .round2_15 := by unfold Statement; decide
theorem round3_0 : Statement .round3_0 := by unfold Statement; decide
theorem round3_1 : Statement .round3_1 := by unfold Statement; decide
theorem round3_2 : Statement .round3_2 := by unfold Statement; decide
theorem round3_3 : Statement .round3_3 := by unfold Statement; decide
theorem round3_4 : Statement .round3_4 := by unfold Statement; decide
theorem round3_5 : Statement .round3_5 := by unfold Statement; decide
theorem round3_6 : Statement .round3_6 := by unfold Statement; decide
theorem round3_7 : Statement .round3_7 := by unfold Statement; decide
theorem round3_8 : Statement .round3_8 := by unfold Statement; decide
theorem round3_9 : Statement .round3_9 := by unfold Statement; decide
theorem round3_10 : Statement .round3_10 := by unfold Statement; decide
theorem round3_11 : Statement .round3_11 := by unfold Statement; decide
theorem round3_12 : Statement .round3_12 := by unfold Statement; decide
theorem round3_13 : Statement .round3_13 := by unfold Statement; decide
theorem round3_14 : Statement .round3_14 := by unfold Statement; decide
theorem round3_15 : Statement .round3_15 := by unfold Statement; decide
theorem round4_0 : Statement .round4_0 := by unfold Statement; decide
theorem round4_1 : Statement .round4_1 := by unfold Statement; decide
theorem round4_2 : Statement .round4_2 := by unfold Statement; decide
theorem round4_3 : Statement .round4_3 := by unfold Statement; decide
theorem round4_4 : Statement .round4_4 := by unfold Statement; decide
theorem round4_5 : Statement .round4_5 := by unfold Statement; decide
theorem round4_6 : Statement .round4_6 := by unfold Statement; decide
theorem round4_7 : Statement .round4_7 := by unfold Statement; decide
theorem round4_8 : Statement .round4_8 := by unfold Statement; decide
theorem round4_9 : Statement .round4_9 := by unfold Statement; decide
theorem round4_10 : Statement .round4_10 := by unfold Statement; decide
theorem round4_11 : Statement .round4_11 := by unfold Statement; decide
theorem round4_12 : Statement .round4_12 := by unfold Statement; decide
theorem round4_13 : Statement .round4_13 := by unfold Statement; decide
theorem round4_14 : Statement .round4_14 := by unfold Statement; decide
theorem round4_15 : Statement .round4_15 := by unfold Statement; decide
theorem init : Statement .init := by unfold Statement; decide
theorem pad : Statement .pad := by unfold Statement; decide
theorem decode : Statement .decode := by unfold Statement; decide
theorem snap : Statement .snap := by unfold Statement; decide
theorem fold : Statement .fold := by unfold Statement; decide
theorem encode : Statement .encode := by unfold Statement; decide

end Sys2Proof.Laws.CodeDefined
end

