-- ==== Sys2Proof/Laws/Runs.lean ====
section
/-! SUPPORT. Runs: one step at a time, and one run after another. -/

namespace Sys2Proof.Machine

/-- The model's `run` is the host's run of the machine. -/
theorem run_eq_core_run (k : Nat) (s : State) : run k s = Sys2Proof.core.run k s := by
  induction k generalizing s with
  | zero => rfl
  | succ k ih =>
    simp only [run, Host.Core.run]
    cases h : step s with
    | next t =>
      have h' : Sys2Proof.core.step s = .next t := h
      rw [h']
      exact ih t
    | fault e =>
      have h' : Sys2Proof.core.step s = .fault e := h
      rw [h']
      rfl
    | refused r =>
      have h' : Sys2Proof.core.step s = .refused r := h
      rw [h']
      rfl

@[simp] theorem run_zero (s : State) : run 0 s = .next s := rfl

/-- The first step of a run. -/
theorem run_succ {k : Nat} {s t : State} (h : step s = .next t) : run (k + 1) s = run k t := by
  simp only [run, h]

/-- A run of `k + l` steps is a run of `k` steps and then one of `l`. -/
theorem run_add {k l : Nat} {s t : State} (h : run k s = .next t) : run (k + l) s = run l t := by
  induction k generalizing s with
  | zero => cases h; rw [Nat.zero_add]
  | succ k ih =>
    cases hs : step s with
    | next u =>
      rw [run_succ hs] at h
      rw [show k + 1 + l = (k + l) + 1 by omega, run_succ hs]
      exact ih h
    | fault e => simp [run, hs] at h
    | refused r => simp [run, hs] at h

/-- The first step of a trace. -/
theorem trace_succ {k : Nat} {s t : State} (h : step s = .next t) :
    trace (k + 1) s = (opcode s.ph s.idx).toList ++ trace k t := by
  simp only [trace, h]

end Sys2Proof.Machine
end

