-- ==== Sys2Proof/Laws/Words.lean ====
section
/-! SUPPORT. Small lemmas of the word operations (00_scope.md R8, 43_state_accumulator.md R163). -/

namespace Sys2Proof.Machine

/-- For `0 < s < 32` the rotate of R8 is the library's rotate. -/
theorem rotl32_eq_rotateLeft (v : Word) {s : Nat} (h : s < 32) : rotl32 v s = v.rotateLeft s := by
  unfold rotl32
  rw [BitVec.rotateLeft_def, Nat.mod_eq_of_lt h]

/-- `addWords` adds component by component (R163). -/
@[simp] theorem addWords_getElem (h w : Vector Word 4) (m : Nat) (hm : m < 4) :
    (addWords h w)[m] = h[m] + w[m] := by
  obtain rfl | rfl | rfl | rfl : m = 0 ∨ m = 1 ∨ m = 2 ∨ m = 3 := by omega
  all_goals simp [addWords]

/-- Every shift amount is between 4 and 23 (42_round_engine.md R148). -/
theorem shiftAmount_range (rr q : BitVec 2) :
    4 ≤ (shiftAmount rr q).val ∧ (shiftAmount rr q).val ≤ 23 := by
  revert rr q
  decide

/-- The function of each round (30_encoding.md R83). -/
theorem roundFun_cases (rr : BitVec 2) :
    (rr = 0 ∧ roundFun rr = funF) ∨ (rr = 1 ∧ roundFun rr = funG) ∨ (rr = 2 ∧ roundFun rr = funH) ∨
      (rr = 3 ∧ roundFun rr = funI) := by
  obtain ⟨rr⟩ := rr
  fin_cases rr
  · exact .inl ⟨rfl, rfl⟩
  · exact .inr (.inl ⟨rfl, rfl⟩)
  · exact .inr (.inr (.inl ⟨rfl, rfl⟩))
  · exact .inr (.inr (.inr ⟨rfl, rfl⟩))

end Sys2Proof.Machine
end

