-- ==== Sys2Proof/Tests/Slice0.lean ====
section
/-! SUPPORT. The model's own tests. Expected results are the spec's: the vectors of 95_test_vectors.md, the
tables of 30_encoding.md and the rules' worked examples. After them, for each obligation that has
hypotheses, a witness: a state and operands that meet them together. -/

namespace Sys2Proof.Tests

open Sys2Proof.Machine

/-! ## Helpers -/

/-- The next state, where there is one. -/
def nextOf (r : Result) : Option State :=
  match r with
  | .next t => some t
  | .fault _ => none
  | .refused _ => none

/-- The fault, where there is one. -/
def faultOf (r : Result) : Option Fault :=
  match r with
  | .next _ => none
  | .fault e => some e
  | .refused _ => none

/-- `W` after one operation from the given `W` and `X`. -/
def wAfter (i : Instr) (w : Vector Word 4) (x : Vector Word 16) : Option (Vector Word 4) :=
  (nextOf (exec i ((State.reset.setW w).setX x))).map fun t => t.w

/-- A chunk whose words are 0 but for one. -/
def oneWord (k : Fin 16) (v : Word) : Vector Word 16 :=
  (Vector.replicate 16 0).set k v

/-- The operation one code byte names. -/
def decodesTo (b : Byte) : Option Instr :=
  match decode [b] with
  | .ok (i, _) => some i
  | .error _ => none

/-- A state in the given phase that holds a message. -/
def withMessage (ph : Phase) (m : List Byte) : State :=
  ((State.reset.setN m.length).setMsg (Memory.ofBytes 0 m)).setPh ph

/-- A state in the given phase that holds a message and its padded form. -/
def padded (ph : Phase) (m : List Byte) : State :=
  ((withMessage ph m).setPb (Memory.ofBytes 0 (padBytes m))).setL (padLen m.length)

/-- A state that holds a digest. -/
def digested (ph : Phase) (m : List Byte) : State :=
  ((padded ph m).setDg (Memory.ofBytes 0 (List.replicate 16 0x5A))).setIdx 63

/-- The message "abc" of S2. -/
def abc : List Byte :=
  [0x61, 0x62, 0x63]

/-- The bytes 00 01 .. 3F of V-PAD-6. -/
def rising : List Byte :=
  (List.range 64).map fun a => BitVec.ofNat 8 a

/-- The chunk words of P2 (V-DEC-2). -/
def abcWords : Vector Word 16 :=
  ((Vector.replicate 16 0).set 0 0x80636261).set 14 0x18

/-! ## Well-formedness (30_encoding.md R86, R89): each check refuses an ill-formed term -/

/-- A code: 0x45 is the last that names an operation (R86). -/
theorem test_wf_code : codeDefined 0x45 = true ∧ codeDefined 0x46 = false ∧ codeDefined 0x7F = false := by
  decide

/-- `ROUNDr p`: `p` from 0 to 15, and it must be there (R89). -/
theorem test_wf_round_operand :
    Line.wf ⟨none, .round1, some 15⟩ = true ∧ Line.wf ⟨none, .round1, some 16⟩ = false ∧
    Line.wf ⟨none, .round4, none⟩ = false ∧ Line.wf ⟨none, .round2, some 16⟩ = false ∧
    Line.wf ⟨none, .round3, some 16⟩ = false := by
  decide

/-- `OP i`: `i` from 1 to 64 (R89). -/
theorem test_wf_op_operand :
    Line.wf ⟨none, .op, some 1⟩ = true ∧ Line.wf ⟨none, .op, some 64⟩ = true ∧
    Line.wf ⟨none, .op, some 0⟩ = false ∧ Line.wf ⟨none, .op, some 65⟩ = false ∧
    Line.wf ⟨none, .op, none⟩ = false := by
  decide

/-- `START n` takes an operand; the sequencing operations, `READ` and the pseudo-operations take none (R89). -/
theorem test_wf_other_operands :
    Line.wf ⟨none, .start, some 3⟩ = true ∧ Line.wf ⟨none, .start, none⟩ = false ∧
    Line.wf ⟨none, .init, some 0⟩ = false ∧ Line.wf ⟨none, .read, some 0⟩ = false ∧
    Line.wf ⟨none, .hash, some 1⟩ = false ∧ Line.wf ⟨none, .hash, none⟩ = true := by
  decide

/-- A code stands only before an operation, and names one (R86, R89); it must be the operation's own. -/
theorem test_wf_line_code :
    Line.wf ⟨some 0x41, .pad, none⟩ = true ∧ Line.wf ⟨some 0x46, .pad, none⟩ = false ∧
    Line.wf ⟨some 0x40, .read, none⟩ = false ∧ Line.wf ⟨some 0x40, .compress, none⟩ = false ∧
    codeAgrees ⟨some 0x1B, .op, some 28⟩ = true ∧ codeAgrees ⟨some 0x1B, .round2, some 11⟩ = true ∧
    codeAgrees ⟨some 0x1C, .op, some 28⟩ = false := by
  decide

/-- Every instruction is well formed, and a family of R83 has nothing that could be out of range. -/
theorem test_wf_instr : Instr.wf .round4_15 = true ∧ Instr.wf .encode = true := by
  decide

/-! ## Decoding (30_encoding.md R81, R84, R86) -/

/-- 30_encoding.md R84: the sixteen codes of round 1. -/
theorem test_decode_round1 :
    ([0x00, 0x01, 0x02, 0x03, 0x04, 0x05, 0x06, 0x07, 0x08, 0x09, 0x0A, 0x0B, 0x0C, 0x0D, 0x0E, 0x0F] :
      List Byte).map decodesTo =
    [some .round1_0, some .round1_1, some .round1_2, some .round1_3,
     some .round1_4, some .round1_5, some .round1_6, some .round1_7,
     some .round1_8, some .round1_9, some .round1_10, some .round1_11,
     some .round1_12, some .round1_13, some .round1_14, some .round1_15] := by
  decide

/-- 30_encoding.md R84: the sixteen codes of round 2. -/
theorem test_decode_round2 :
    ([0x10, 0x11, 0x12, 0x13, 0x14, 0x15, 0x16, 0x17, 0x18, 0x19, 0x1A, 0x1B, 0x1C, 0x1D, 0x1E, 0x1F] :
      List Byte).map decodesTo =
    [some .round2_0, some .round2_1, some .round2_2, some .round2_3,
     some .round2_4, some .round2_5, some .round2_6, some .round2_7,
     some .round2_8, some .round2_9, some .round2_10, some .round2_11,
     some .round2_12, some .round2_13, some .round2_14, some .round2_15] := by
  decide

/-- 30_encoding.md R84: the sixteen codes of round 3. -/
theorem test_decode_round3 :
    ([0x20, 0x21, 0x22, 0x23, 0x24, 0x25, 0x26, 0x27, 0x28, 0x29, 0x2A, 0x2B, 0x2C, 0x2D, 0x2E, 0x2F] :
      List Byte).map decodesTo =
    [some .round3_0, some .round3_1, some .round3_2, some .round3_3,
     some .round3_4, some .round3_5, some .round3_6, some .round3_7,
     some .round3_8, some .round3_9, some .round3_10, some .round3_11,
     some .round3_12, some .round3_13, some .round3_14, some .round3_15] := by
  decide

/-- 30_encoding.md R84: the sixteen codes of round 4. -/
theorem test_decode_round4 :
    ([0x30, 0x31, 0x32, 0x33, 0x34, 0x35, 0x36, 0x37, 0x38, 0x39, 0x3A, 0x3B, 0x3C, 0x3D, 0x3E, 0x3F] :
      List Byte).map decodesTo =
    [some .round4_0, some .round4_1, some .round4_2, some .round4_3,
     some .round4_4, some .round4_5, some .round4_6, some .round4_7,
     some .round4_8, some .round4_9, some .round4_10, some .round4_11,
     some .round4_12, some .round4_13, some .round4_14, some .round4_15] := by
  decide

/-- R84, V-SEQ-6: the codes 0x40..0x45. -/
theorem test_decode_sequencing :
    ([0x40, 0x41, 0x42, 0x43, 0x44, 0x45] : List Byte).map decodesTo =
    [some .init, some .pad, some .decode, some .snap, some .fold, some .encode] := by
  decide

/-- R81: one code of each format written out bit by bit: class, rr, p; class, sub. -/
theorem test_decode_bits :
    decodeTableWord 8 0b00001101 = some .round1_13 ∧ decodeTableWord 8 0b00011011 = some .round2_11 ∧
    decodeTableWord 8 0b00100110 = some .round3_6 ∧ decodeTableWord 8 0b00111110 = some .round4_14 ∧
    decodeTableWord 7 0b1000000 = some .init ∧ decodeTableWord 7 0b1000001 = some .pad ∧
    decodeTableWord 7 0b1000010 = some .decode ∧ decodeTableWord 7 0b1000011 = some .snap ∧
    decodeTableWord 7 0b1000100 = some .fold ∧ decodeTableWord 7 0b1000101 = some .encode := by
  decide

/-- R86, V-SEQ-7: reserved codes are refused by name; a byte with bit 7 set holds no code. -/
theorem test_decode_refusals :
    decode [0x46] = .error (.reserved 0x46) ∧ decode [0x5A] = .error (.reserved 0x5A) ∧
    decode [0x7F] = .error (.reserved 0x7F) ∧ decode [0x80] = .error (.notACode 0x80) ∧
    decode [] = .error .empty := by
  decide

/-- R81: one code a byte, and the rest is left. -/
theorem test_decode_rest : decode [0x42, 0x43, 0x46] = .ok (.decode, [0x43, 0x46]) := by
  decide

/-- R84: the encoder's codes against the table's. -/
theorem test_encode :
    encode .round1_0 = [0x00] ∧ encode .round2_11 = [0x1B] ∧ encode .round3_15 = [0x2F] ∧
    encode .round4_15 = [0x3F] ∧ encode .init = [0x40] ∧ encode .encode = [0x45] := by
  decide

/-- V-SEQ-5: what the code 0x1B looks up: target b, roles c, d, a, `k = 8`, `s = 20`, `T = 0x455A14ED`. -/
theorem test_lookup_op28 :
    roles (quarterOf 0x1B) = ⟨1, 2, 3, 0⟩ ∧ ksel (roundOf 0x1B) (posOf 0x1B) = 8 ∧
    shiftAmount (roundOf 0x1B) (quarterOf 0x1B) = 20 ∧ constT 0x1B = 0x455A14ED := by
  decide

/-! ## Listings (30_encoding.md R89, R90) -/

/-- R89: `[ code ] mnemonic [ operand ] [ ; comment ]`. -/
theorem test_readLine :
    readLine "1B     ROUND2 11        ; W".toList = some ⟨some 0x1B, .round2, some 11⟩ ∧
    readLine "       START 62".toList = some ⟨none, .start, some 62⟩ ∧
    readLine "45     ENCODE".toList = some ⟨some 0x45, .encode, none⟩ ∧
    readLine "OP 64".toList = some ⟨none, .op, some 64⟩ ∧
    readLine "ADD 1".toList = none ∧ readLine "80 INIT".toList = none := by
  decide

/-- R89: `OP 28` and `ROUND2 11` are one operation; `OP 65` is none. -/
theorem test_lineOps :
    lineOps 0 ⟨none, .op, some 28⟩ = some [.round2_11] ∧
    lineOps 0 ⟨none, .round2, some 11⟩ = some [.round2_11] ∧ lineOps 0 ⟨none, .op, some 65⟩ = none ∧
    lineOps 0 ⟨none, .read, none⟩ = none := by
  decide

/-- V-SEQ-8 to V-SEQ-10: how many operations a message takes. -/
theorem test_schedule_length :
    [0, 55, 56, 64, 119, 120].map runLength = [70, 70, 137, 137, 137, 204] ∧
    (schedule 0).length = 70 := by
  decide

/-! ## Primitives (95_test_vectors.md section 2.1) and the four functions (section 2.4) -/

/-- V-PRIM-4 to V-PRIM-10. -/
theorem test_rotl32 :
    rotl32 0x00000001 7 = 0x00000080 ∧ rotl32 0x80000000 1 = 0x00000001 ∧
    rotl32 0x12345678 4 = 0x23456781 ∧ rotl32 0x12345678 16 = 0x56781234 ∧
    rotl32 0x12345678 23 = 0x3C091A2B ∧ rotl32 0xD76AA4F7 7 = 0xB5527BEB ∧
    rotl32 0xFFFFFFFF 12 = 0xFFFFFFFF := by
  decide

/-- V-PRIM-13 to V-PRIM-17. -/
theorem test_bytes_and_lengths :
    le32 0x61 0x62 0x63 0x80 = 0x80636261 ∧ le32 0x01 0x23 0x45 0x67 = 0x67452301 ∧
    bytesOfWord 0xD98C1DD4 = [0xD4, 0x1D, 0x8C, 0xD9] ∧ lengthField (2 ^ 61) = 0 ∧
    lengthField (2 ^ 61 + 1) = 8 := by
  decide

/-- V-FN-7: the truth tables of F, G, H, I, read off the three columns. -/
theorem test_functions_truth_tables :
    funF 0x0F0F0F0F 0x33333333 0x55555555 = 0x53535353 ∧
    funG 0x0F0F0F0F 0x33333333 0x55555555 = 0x27272727 ∧
    funH 0x0F0F0F0F 0x33333333 0x55555555 = 0x69696969 ∧
    funI 0x0F0F0F0F 0x33333333 0x55555555 = 0x9C9C9C9C := by
  decide

/-- V-FN-9. -/
theorem test_functions_vector :
    funF 0x12345678 0x9ABCDEF0 0x0FEDCBA9 = 0x1FFDDFF1 ∧
    funG 0x12345678 0x9ABCDEF0 0x0FEDCBA9 = 0x92345678 ∧
    funH 0x12345678 0x9ABCDEF0 0x0FEDCBA9 = 0x87654321 ∧
    funI 0x12345678 0x9ABCDEF0 0x0FEDCBA9 = 0x688AA88E := by
  decide

/-! ## The round operations (95_test_vectors.md section 2.5, program P2) -/

/-- P2 of 95_test_vectors.md: `W` before `ROUND1 0` and after each of the sixteen operations of round 1. -/
def abcRound1 : List (Vector Word 4) :=
  [#v[0x67452301, 0xEFCDAB89, 0x98BADCFE, 0x10325476],
   #v[0xD6D117B4, 0xEFCDAB89, 0x98BADCFE, 0x10325476],
   #v[0xD6D117B4, 0xEFCDAB89, 0x98BADCFE, 0x344A8432],
   #v[0xD6D117B4, 0xEFCDAB89, 0x2F6FBD72, 0x344A8432],
   #v[0xD6D117B4, 0x7AD956F2, 0x2F6FBD72, 0x344A8432],
   #v[0xC73741EF, 0x7AD956F2, 0x2F6FBD72, 0x344A8432],
   #v[0xC73741EF, 0x7AD956F2, 0x2F6FBD72, 0x8BAC3051],
   #v[0xC73741EF, 0x7AD956F2, 0x207DC67B, 0x8BAC3051],
   #v[0xC73741EF, 0x928D99F6, 0x207DC67B, 0x8BAC3051],
   #v[0x854B3712, 0x928D99F6, 0x207DC67B, 0x8BAC3051],
   #v[0x854B3712, 0x928D99F6, 0x207DC67B, 0x74E2F284],
   #v[0x854B3712, 0x928D99F6, 0x3020401C, 0x74E2F284],
   #v[0x854B3712, 0x5ED49596, 0x3020401C, 0x74E2F284],
   #v[0xDDA9B9A6, 0x5ED49596, 0x3020401C, 0x74E2F284],
   #v[0xDDA9B9A6, 0x5ED49596, 0x3020401C, 0xA1051895],
   #v[0xDDA9B9A6, 0x5ED49596, 0xE396856B, 0xA1051895],
   #v[0xDDA9B9A6, 0x72AFF2E0, 0xE396856B, 0xA1051895]]

/-- P2: each operation of round 1, one step each. -/
theorem test_round1_trace :
    ((List.range 16).all fun p => decide (wAfter (roundInstr 0 (BitVec.ofNat 4 p))
      (abcRound1.getD p iv) abcWords = abcRound1[p + 1]?)) = true := by
  decide

/-- P2 of 95_test_vectors.md: `W` before `ROUND2 0` and after each of the sixteen operations of round 2. -/
def abcRound2 : List (Vector Word 4) :=
  [#v[0xDDA9B9A6, 0x72AFF2E0, 0xE396856B, 0xA1051895],
   #v[0x3E9E9126, 0x72AFF2E0, 0xE396856B, 0xA1051895],
   #v[0x3E9E9126, 0x72AFF2E0, 0xE396856B, 0x4A1D804E],
   #v[0x3E9E9126, 0x72AFF2E0, 0xE25E1652, 0x4A1D804E],
   #v[0x3E9E9126, 0xB5B204E4, 0xE25E1652, 0x4A1D804E],
   #v[0x59A8FFDA, 0xB5B204E4, 0xE25E1652, 0x4A1D804E],
   #v[0x59A8FFDA, 0xB5B204E4, 0xE25E1652, 0x6D002F1E],
   #v[0x59A8FFDA, 0xB5B204E4, 0xABFC7920, 0x6D002F1E],
   #v[0x59A8FFDA, 0x47092C07, 0xABFC7920, 0x6D002F1E],
   #v[0xB7F268CF, 0x47092C07, 0xABFC7920, 0x6D002F1E],
   #v[0xB7F268CF, 0x47092C07, 0xABFC7920, 0x09388EFF],
   #v[0xB7F268CF, 0x47092C07, 0xFE1623B1, 0x09388EFF],
   #v[0xB7F268CF, 0x786ACB8F, 0xFE1623B1, 0x09388EFF],
   #v[0x790A77FB, 0x786ACB8F, 0xFE1623B1, 0x09388EFF],
   #v[0x790A77FB, 0x786ACB8F, 0xFE1623B1, 0x9F47E4F8],
   #v[0x790A77FB, 0x786ACB8F, 0xA62884AA, 0x9F47E4F8],
   #v[0x790A77FB, 0x726342D3, 0xA62884AA, 0x9F47E4F8]]

/-- P2: each operation of round 2, one step each. -/
theorem test_round2_trace :
    ((List.range 16).all fun p => decide (wAfter (roundInstr 1 (BitVec.ofNat 4 p))
      (abcRound2.getD p iv) abcWords = abcRound2[p + 1]?)) = true := by
  decide

/-- P2 of 95_test_vectors.md: `W` before `ROUND3 0` and after each of the sixteen operations of round 3. -/
def abcRound3 : List (Vector Word 4) :=
  [#v[0x790A77FB, 0x726342D3, 0xA62884AA, 0x9F47E4F8],
   #v[0xB3707EBF, 0x726342D3, 0xA62884AA, 0x9F47E4F8],
   #v[0xB3707EBF, 0x726342D3, 0xA62884AA, 0x60127B2E],
   #v[0xB3707EBF, 0x726342D3, 0x8D212FF5, 0x60127B2E],
   #v[0xB3707EBF, 0x3B0875C7, 0x8D212FF5, 0x60127B2E],
   #v[0x21B117B9, 0x3B0875C7, 0x8D212FF5, 0x60127B2E],
   #v[0x21B117B9, 0x3B0875C7, 0x8D212FF5, 0x6E7429D5],
   #v[0x21B117B9, 0x3B0875C7, 0x3575227E, 0x6E7429D5],
   #v[0x21B117B9, 0x5A2F5EA5, 0x3575227E, 0x6E7429D5],
   #v[0x11DE1779, 0x5A2F5EA5, 0x3575227E, 0x6E7429D5],
   #v[0x11DE1779, 0x5A2F5EA5, 0x3575227E, 0xFADCAA38],
   #v[0x11DE1779, 0x5A2F5EA5, 0x31C465CA, 0xFADCAA38],
   #v[0x11DE1779, 0x4C6124F4, 0x31C465CA, 0xFADCAA38],
   #v[0x7F2E507B, 0x4C6124F4, 0x31C465CA, 0xFADCAA38],
   #v[0x7F2E507B, 0x4C6124F4, 0x31C465CA, 0x99D9679D],
   #v[0x7F2E507B, 0x4C6124F4, 0x8FAE6399, 0x99D9679D],
   #v[0x7F2E507B, 0x7BEB9700, 0x8FAE6399, 0x99D9679D]]

/-- P2: each operation of round 3, one step each. -/
theorem test_round3_trace :
    ((List.range 16).all fun p => decide (wAfter (roundInstr 2 (BitVec.ofNat 4 p))
      (abcRound3.getD p iv) abcWords = abcRound3[p + 1]?)) = true := by
  decide

/-- P2 of 95_test_vectors.md: `W` before `ROUND4 0` and after each of the sixteen operations of round 4. -/
def abcRound4 : List (Vector Word 4) :=
  [#v[0x7F2E507B, 0x7BEB9700, 0x8FAE6399, 0x99D9679D],
   #v[0x7B201DF8, 0x7BEB9700, 0x8FAE6399, 0x99D9679D],
   #v[0x7B201DF8, 0x7BEB9700, 0x8FAE6399, 0xF4E8E96E],
   #v[0x7B201DF8, 0x7BEB9700, 0xB298CEFD, 0xF4E8E96E],
   #v[0x7B201DF8, 0x8BF025C4, 0xB298CEFD, 0xF4E8E96E],
   #v[0x06CC5E8A, 0x8BF025C4, 0xB298CEFD, 0xF4E8E96E],
   #v[0x06CC5E8A, 0x8BF025C4, 0xB298CEFD, 0x5B0D97AA],
   #v[0x06CC5E8A, 0x8BF025C4, 0x7D632DD0, 0x5B0D97AA],
   #v[0x06CC5E8A, 0x3BFA2C27, 0x7D632DD0, 0x5B0D97AA],
   #v[0x7F81CC35, 0x3BFA2C27, 0x7D632DD0, 0x5B0D97AA],
   #v[0x7F81CC35, 0x3BFA2C27, 0x7D632DD0, 0x094454AB],
   #v[0x7F81CC35, 0x3BFA2C27, 0x4F9DBE3F, 0x094454AB],
   #v[0x7F81CC35, 0x7327D604, 0x4F9DBE3F, 0x094454AB],
   #v[0x310ADE8F, 0x7327D604, 0x4F9DBE3F, 0x094454AB],
   #v[0x310ADE8F, 0x7327D604, 0x4F9DBE3F, 0x624D8CB2],
   #v[0x310ADE8F, 0x7327D604, 0xE484B9D8, 0x624D8CB2],
   #v[0x310ADE8F, 0xC08226B3, 0xE484B9D8, 0x624D8CB2]]

/-- P2: each operation of round 4, one step each. -/
theorem test_round4_trace :
    ((List.range 16).all fun p => decide (wAfter (roundInstr 3 (BitVec.ofNat 4 p))
      (abcRound4.getD p iv) abcWords = abcRound4[p + 1]?)) = true := by
  decide

/-- 95_test_vectors.md section 2.5, the vectors of round 1. -/
theorem test_round1_vectors :
    wAfter .round1_0 #v[0x00000000, 0x00000000, 0x00000000, 0x00000000] (oneWord 0 0x00000000) =
      some #v[0xB5523C6B, 0x00000000, 0x00000000, 0x00000000] ∧
    wAfter .round1_0 #v[0xFFFFFFFF, 0xFFFFFFFF, 0xFFFFFFFF, 0xFFFFFFFF] (oneWord 0 0xFFFFFFFF) =
      some #v[0xB5523AEA, 0xFFFFFFFF, 0xFFFFFFFF, 0xFFFFFFFF] ∧
    wAfter .round1_1 #v[0x88A6FE56, 0xF816B8D1, 0x719F744D, 0x3944176E] (oneWord 1 0x3B662A39) =
      some #v[0x88A6FE56, 0xF816B8D1, 0x719F744D, 0xA3BC63BF] ∧
    wAfter .round1_2 #v[0xA28F15E4, 0x4B3D24A9, 0x24351ED0, 0xCD4FF2BF] (oneWord 2 0x6EA87788) =
      some #v[0xA28F15E4, 0x4B3D24A9, 0x04FE6539, 0xCD4FF2BF] ∧
    wAfter .round1_3 #v[0x33717994, 0x779081BD, 0xAF4BD359, 0xD3A77CE6] (oneWord 3 0xAFE88712) =
      some #v[0x33717994, 0xCFAAEDED, 0xAF4BD359, 0xD3A77CE6] ∧
    wAfter .round1_15 #v[0x8A390FE5, 0xAB5C07CA, 0xE79898EC, 0xE43656D7] (oneWord 15 0xA64373EA) =
      some #v[0x8A390FE5, 0xCE3A7A12, 0xE79898EC, 0xE43656D7] := by
  decide

/-- 95_test_vectors.md section 2.5, the vectors of round 2. -/
theorem test_round2_vectors :
    wAfter .round2_0 #v[0x00000000, 0x00000000, 0x00000000, 0x00000000] (oneWord 1 0x00000000) =
      some #v[0xC3C4AC5E, 0x00000000, 0x00000000, 0x00000000] ∧
    wAfter .round2_0 #v[0xFFFFFFFF, 0xFFFFFFFF, 0xFFFFFFFF, 0xFFFFFFFF] (oneWord 1 0xFFFFFFFF) =
      some #v[0xC3C4ABFD, 0xFFFFFFFF, 0xFFFFFFFF, 0xFFFFFFFF] ∧
    wAfter .round2_3 #v[0xEF6140F6, 0xA7568D6F, 0xE0457C59, 0xDF66F0B5] (oneWord 0 0x044F33AB) =
      some #v[0xEF6140F6, 0x719DD6A0, 0xE0457C59, 0xDF66F0B5] ∧
    wAfter .round2_15 #v[0x0E4E6598, 0xF77385D1, 0x6AC65E1D, 0x54C99785] (oneWord 12 0x76EA450D) =
      some #v[0x0E4E6598, 0x431BC31B, 0x6AC65E1D, 0x54C99785] := by
  decide

/-- 95_test_vectors.md section 2.5, the vectors of round 3. -/
theorem test_round3_vectors :
    wAfter .round3_0 #v[0x00000000, 0x00000000, 0x00000000, 0x00000000] (oneWord 5 0x00000000) =
      some #v[0xFFA3942F, 0x00000000, 0x00000000, 0x00000000] ∧
    wAfter .round3_0 #v[0xFFFFFFFF, 0xFFFFFFFF, 0xFFFFFFFF, 0xFFFFFFFF] (oneWord 5 0xFFFFFFFF) =
      some #v[0xFFA393FE, 0xFFFFFFFF, 0xFFFFFFFF, 0xFFFFFFFF] ∧
    wAfter .round3_3 #v[0xD62A80C7, 0x565ABBE4, 0x5F98DF1B, 0x69567E21] (oneWord 14 0x70D6065D) =
      some #v[0xD62A80C7, 0x84EBDC29, 0x5F98DF1B, 0x69567E21] ∧
    wAfter .round3_15 #v[0x6D7837C0, 0xAEE134BE, 0xCD0464CF, 0x81AB174F] (oneWord 2 0xB3D42763) =
      some #v[0x6D7837C0, 0x3029014A, 0xCD0464CF, 0x81AB174F] := by
  decide

/-- 95_test_vectors.md section 2.5, the vectors of round 4. -/
theorem test_round4_vectors :
    wAfter .round4_0 #v[0x00000000, 0x00000000, 0x00000000, 0x00000000] (oneWord 0 0x00000000) =
      some #v[0x0A4890FD, 0x00000000, 0x00000000, 0x00000000] ∧
    wAfter .round4_0 #v[0xFFFFFFFF, 0xFFFFFFFF, 0xFFFFFFFF, 0xFFFFFFFF] (oneWord 0 0xFFFFFFFF) =
      some #v[0x0A4890BC, 0xFFFFFFFF, 0xFFFFFFFF, 0xFFFFFFFF] ∧
    wAfter .round4_3 #v[0x825DAD8A, 0x4C67E79E, 0x3495207B, 0x03611215] (oneWord 5 0x772D3CCC) =
      some #v[0x825DAD8A, 0xD63D005F, 0x3495207B, 0x03611215] ∧
    wAfter .round4_14 #v[0x5DCE7CD4, 0xDC82B67F, 0x9ABAC1F1, 0x211FB6C4] (oneWord 2 0x1DD77CCE) =
      some #v[0x5DCE7CD4, 0xDC82B67F, 0xEB64E7D1, 0x211FB6C4] ∧
    wAfter .round4_15 #v[0xE47E9DDD, 0x1B38C566, 0x8036F91E, 0xEEA14983] (oneWord 9 0xD8A333E5) =
      some #v[0xE47E9DDD, 0x7361884D, 0x8036F91E, 0xEEA14983] := by
  decide

/-- R139: `ROUND4 15` alone leaves `S_ROUND`; `ROUND4 14` sets `I` to 64. -/
theorem test_round_moves :
    (nextOf (exec .round4_15 (padded .sRound abc))).map (fun t => (t.ph, t.opIndex)) =
      some (.sFold, 1) ∧
    (nextOf (exec .round4_14 (padded .sRound abc))).map (fun t => (t.ph, t.opIndex)) =
      some (.sRound, 64) := by
  decide

/-! ## The Padder (95_test_vectors.md section 2.2) -/

/-- V-PAD-1: `L` and `NCH`, the wrap corner of the length field among them. -/
theorem test_pad_lengths :
    [0, 54, 55, 56, 63, 64, 119, 120, 127, 128, 1000].map padLen =
      [64, 64, 64, 128, 128, 128, 128, 192, 192, 192, 1024] ∧
    [0, 55, 56, 120, 1000, 536870912].map numChunks = [1, 1, 2, 3, 16, 8388609] ∧
    padLen (2 ^ 64 + 5) = 2 ^ 64 + 64 := by
  decide

/-- V-PAD-1: the length field's bytes. -/
theorem test_pad_length_field :
    lengthBytes 43 = [0x58, 0x01, 0, 0, 0, 0, 0, 0] ∧
    lengthBytes 536870912 = [0, 0, 0, 0, 0x01, 0, 0, 0] ∧
    lengthBytes (2 ^ 61 - 1) = [0xF8, 0xFF, 0xFF, 0xFF, 0xFF, 0xFF, 0xFF, 0xFF] ∧
    lengthBytes (2 ^ 64 + 5) = [0x28, 0, 0, 0, 0, 0, 0, 0] := by
  decide

/-- V-PAD-3: what `PAD` leaves in `PB` for "abc", and its registers. -/
theorem test_pad_abc :
    (nextOf (exec .pad (withMessage .sPad abc))).map (fun t => (t.pb.map fun c => c.2, t.l, t.j, t.ph)) =
      some ([0x61, 0x62, 0x63, 0x80] ++ List.replicate 52 0 ++ [0x18, 0, 0, 0, 0, 0, 0, 0],
        64, 0, .sDecode) := by
  decide

/-- V-PAD-4: 55 bytes, the marker directly before the length field. -/
theorem test_pad_55 :
    (nextOf (exec .pad (withMessage .sPad (List.replicate 55 0x61)))).map (fun t => t.pb.map fun c => c.2) =
      some (List.replicate 55 0x61 ++ [0x80, 0xB8, 0x01, 0, 0, 0, 0, 0, 0]) := by
  decide

/-! ## The ChunkDecoder (95_test_vectors.md section 2.3) -/

/-- V-DEC-3: bytes 00 01 .. 3F, every byte distinct. -/
theorem test_decode_rising :
    (nextOf (exec .decode (padded .sDecode rising))).map (fun t => (t.x, t.ph)) =
      some (#v[0x03020100, 0x07060504, 0x0B0A0908, 0x0F0E0D0C, 0x13121110, 0x17161514, 0x1B1A1918, 0x1F1E1D1C,
        0x23222120, 0x27262524, 0x2B2A2928, 0x2F2E2D2C, 0x33323130, 0x37363534, 0x3B3A3938, 0x3F3E3D3C],
        .sSnap) := by
  decide

/-- V-DEC-4: the padding chunk, `J = 1`. -/
theorem test_decode_second_chunk :
    (nextOf (exec .decode ((padded .sDecode rising).setJ 1))).map (fun t => t.x) =
      some (((Vector.replicate 16 0).set 0 0x80).set 14 0x200) := by
  decide

/-! ## The StateAccumulator (95_test_vectors.md section 2.6) -/

/-- V-ACC-1. -/
theorem test_init :
    (nextOf (exec .init (withMessage .sInit abc))).map (fun t => (t.h, t.ph)) =
      some (#v[0x67452301, 0xEFCDAB89, 0x98BADCFE, 0x10325476], .sPad) := by
  decide

/-- V-ACC-2: `H` is copied and kept. -/
theorem test_snap :
    (nextOf (exec .snap (((padded .sSnap abc).setIdx 63).setH
      #v[0xD98C1DD4, 0x04B2008F, 0x980980E9, 0x7E42F8EC]))).map (fun t => (t.w, t.h, t.opIndex, t.ph)) =
      some (#v[0xD98C1DD4, 0x04B2008F, 0x980980E9, 0x7E42F8EC],
        #v[0xD98C1DD4, 0x04B2008F, 0x980980E9, 0x7E42F8EC], 1, .sRound) := by
  decide

/-- What `FOLD` leaves in `H`, `J` and `PH`. -/
def folded (h w : Vector Word 4) (j l : Nat) : Option (Vector Word 4 × Nat × Phase) :=
  (nextOf (exec .fold ((((State.reset.setH h).setW w).setJ j).setL l))).map fun t => (t.h, t.j, t.ph)

/-- V-ACC-3, V-ACC-4: the last chunk; and every addition wrapping, with a chunk to come. -/
theorem test_fold :
    folded #v[0x67452301, 0xEFCDAB89, 0x98BADCFE, 0x10325476] #v[0x7246FAD3, 0x14E45506, 0xFF4EA3EB, 0x6E10A476]
      0 64 = some (#v[0xD98C1DD4, 0x04B2008F, 0x980980E9, 0x7E42F8EC], 0, .sEncode) ∧
    folded #v[0xFFFFFFFF, 0x80000000, 0, 1] #v[1, 0x80000000, 0, 0xFFFFFFFF] 0 128 =
      some (#v[0, 0, 0, 0], 1, .sDecode) := by
  decide

/-- V-ACC-5, V-ACC-6: whether another chunk follows. -/
theorem test_fold_chunks :
    folded #v[0xFFFFFFFF, 0x80000000, 0, 1] #v[1, 0x80000000, 0, 0xFFFFFFFF] 1 128 =
      some (#v[0, 0, 0, 0], 1, .sEncode) ∧
    folded #v[1, 2, 3, 4] #v[0, 0, 0, 0] 2 256 = some (#v[1, 2, 3, 4], 3, .sDecode) := by
  decide

/-! ## The digest encoder (95_test_vectors.md section 2.7) -/

/-- What `ENCODE` leaves in `DG` and `PH`. -/
def encoded (h : Vector Word 4) : Option (List Byte × Phase) :=
  (nextOf (exec .encode ((digested .sEncode abc).setH h))).map fun t => (t.dg.map fun c => c.2, t.ph)

/-- V-ENC-3, V-ENC-4. -/
theorem test_encode_constants :
    encoded #v[0x67452301, 0xEFCDAB89, 0x98BADCFE, 0x10325476] =
      some ([0x01, 0x23, 0x45, 0x67, 0x89, 0xAB, 0xCD, 0xEF, 0xFE, 0xDC, 0xBA, 0x98, 0x76, 0x54, 0x32, 0x10], .done) ∧
    encoded #v[0x03020100, 0x07060504, 0x0B0A0908, 0x0F0E0D0C] =
      some ([0x00, 0x01, 0x02, 0x03, 0x04, 0x05, 0x06, 0x07, 0x08, 0x09, 0x0A, 0x0B, 0x0C, 0x0D, 0x0E, 0x0F],
        .done) := by
  decide

/-- V-ENC-5, V-ENC-6. -/
theorem test_encode_digest :
    encoded #v[0xD98C1DD4, 0x04B2008F, 0x980980E9, 0x7E42F8EC] =
      some ([0xD4, 0x1D, 0x8C, 0xD9, 0x8F, 0x00, 0xB2, 0x04, 0xE9, 0x80, 0x09, 0x98, 0xEC, 0xF8, 0x42, 0x7E], .done) ∧
    encoded #v[0x00000080, 0x80000000, 0x00000001, 0x01000000] =
      some ([0x80, 0, 0, 0, 0, 0, 0, 0x80, 0x01, 0, 0, 0, 0, 0, 0, 0x01], .done) := by
  decide

/-! ## The sequencer and the host (95_test_vectors.md section 2.8) -/

/-- V-SEQ-1 to V-SEQ-4. -/
theorem test_opcode :
    opcode .sRound 0 = some 0x00 ∧ opcode .sRound 16 = some 0x10 ∧ opcode .sRound 47 = some 0x2F ∧
    opcode .sRound 63 = some 0x3F := by
  decide

/-- V-SEQ-11: a `START` to come changes nothing of a step in `S_ROUND`. -/
theorem test_start_while_busy :
    (nextOf (step ((padded .sRound abc).setPending [.start abc]))).map (fun t => (t.pending, t.n, t.opIndex)) =
      some ([.start abc], 3, 2) := by
  decide

/-- R180: `START` after reset. -/
theorem test_start :
    (nextOf (step (State.reset.setPending [.start abc, .read]))).map (fun t => (t.n, t.ph, t.msg, t.pending)) =
      some (3, .sInit, [(0, 0x61), (1, 0x62), (2, 0x63)], [.read]) := by
  decide

/-- R181: a message longer than `MAX_N` is not taken; one of that length is. -/
theorem test_start_maxN :
    nextOf (step ((State.reset.setMaxN (some 2)).setPending [.start abc])) =
      some ((State.reset.setMaxN (some 2)).setPending [.start abc]) ∧
    (nextOf (step ((State.reset.setMaxN (some 3)).setPending [.start abc]))).map (fun t => t.ph) =
      some .sInit := by
  decide

/-- V-SEQ-12: `READ` after reset is not enabled. -/
theorem test_read_idle :
    (nextOf (step (State.reset.setPending [.read]))).map (fun t => (t.delivered, t.pending)) =
      some ([], [.read]) := by
  decide

/-- V-SEQ-13: `READ` twice returns the same bytes twice, and the phase stays `DONE`. -/
theorem test_read_twice :
    (nextOf (run 2 ((digested .done abc).setPending [.read, .read]))).map (fun t => (t.delivered, t.ph)) =
      some ([List.replicate 16 0x5A, List.replicate 16 0x5A], .done) := by
  decide

/-- R36, R57: `DECODE` right after reset reads a chunk that is not there; `PAD` a message without value. -/
theorem test_modelling_faults :
    faultOf (exec .decode State.reset) = some (.outOfRange .pb 0) ∧
    faultOf (exec .decode (State.reset.setL 64)) = some (.unwritten .pb 0) ∧
    faultOf (exec .pad (State.reset.setN 1)) = some (.unwritten .msg 0) := by
  decide

/-- R86: the machine refuses to step on a reserved code. -/
theorem test_reserved_refused : stepCode 0x46 State.reset = .refused (.reservedCode 0x46) := by
  rfl

/-- Log entry 6: the next step runs the operation placed. -/
theorem test_withFetchWord :
    (State.reset.withFetchWord 8 0x1B).ph = .sRound ∧ (State.reset.withFetchWord 8 0x1B).idx = 0x1B ∧
    (nextOf (step (State.reset.withFetchWord 8 0x41))).map (fun t => t.l) = some 64 ∧
    State.reset.withFetchWord 8 0x46 = State.reset := by
  decide

/-- R224: a reset in `DONE`. -/
theorem test_reset_input : (digested .done abc).resetInput = State.reset := by
  decide

/-- R172: the display form of the digest of the empty message (S1). -/
theorem test_displayForm :
    displayForm [0xD4, 0x1D, 0x8C, 0xD9, 0x8F, 0x00, 0xB2, 0x04, 0xE9, 0x80, 0x09, 0x98, 0xEC, 0xF8, 0x42, 0x7E] =
      "d41d8cd98f00b204e9800998ecf8427e".toList := by
  decide

/-! ## Witnesses: states and operands that meet the obligations' hypotheses -/

/-- CodesAndSpellingsAreBijections: the ends of the operands' ranges, and the first value past them. -/
theorem witness_spellings :
    roundSpelling 0 0 = some .round1_0 ∧ roundSpelling 3 15 = some .round4_15 ∧ roundSpelling 3 16 = none ∧
    opSpelling 1 = some .round1_0 ∧ opSpelling 64 = some .round4_15 ∧ opSpelling 0 = none ∧
    opSpelling 65 = none ∧ decodeCode 0x45 = .ok .encode ∧ Instr.encode.code = 0x45 := by
  decide

/-- DecodeInvertsEncode: an instruction that is well formed, with a list on each side of the equivalence. -/
theorem witness_decodeInvertsEncode :
    Instr.wf .fold = true ∧ decode ([0x44, 0x41] : List Byte) = .ok (.fold, [0x41]) ∧
    ([0x44, 0x41] : List Byte) = encode .fold ++ [0x41] := by
  decide

/-- ReservedCodesRefused: the first and the last reserved code, and a code a sequencer state selects. -/
theorem witness_reserved :
    0x46 ≤ (0x46 : OpCode).toNat ∧ 0x46 ≤ (0x7F : OpCode).toNat ∧ opcode .sEncode 0 = some 0x45 := by
  decide

/-- CodeFieldsAreIndexArithmetic: the first and the last index. -/
theorem witness_codeFields : (1 : Nat) = (0 : BitVec 6).toNat + 1 ∧ (64 : Nat) = (63 : BitVec 6).toNat + 1 := by
  decide

/-- RotateMovesEveryBit and WordsAreLittleEndian: the ends of the ranges of `s`, `b` and `k`. -/
theorem witness_rotate :
    (0 < 1 ∧ 1 < 32) ∧ (0 < 31 ∧ 31 < 32) ∧ (rotl32 1 31).getLsbD 31 = true ∧ byteOf 3 (0x12000000 : Word) = 0x12 := by
  decide

/-- RoundFunctionsActBitwise: the ends of the range of `t`. -/
theorem witness_bitwise :
    (funF 1 1 0).getLsbD 0 = true ∧ (funI 0 0 0x7FFFFFFF).getLsbD 31 = true ∧ 31 < 32 := by
  decide

/-- RolePatternRotates: a code that starts a round, and the last code that has a successor. -/
theorem witness_roles :
    (48 : BitVec 6).toNat % 16 = 0 ∧ (62 : BitVec 6).toNat < 63 ∧
    (roles (quarterOf (62 + 1))).b = (roles (quarterOf 62)).target := by
  decide

/-- Round1..4OperationsExecute: a row of each table, and a state each worked example speaks of. -/
theorem witness_rounds :
    (⟨.round1_0, 1, 0, 1, 2, 3, 0, 7, 0xD76AA478⟩ : RoundRow) ∈ rowsOfRound1 ∧
    (⟨.round4_15, 64, 1, 2, 3, 0, 9, 21, 0xEB86D391⟩ : RoundRow) ∈ rowsOfRound4 ∧
    wAfter .round1_0 #v[0x67452301, 0xEFCDAB89, 0x98BADCFE, 0x10325476] (oneWord 0 0x80) =
      some #v[0xA5202774, 0xEFCDAB89, 0x98BADCFE, 0x10325476] ∧
    wAfter .round2_0 #v[0xF56C7CF1, 0xD6819C6A, 0x5AA53F75, 0x374943A7] (oneWord 1 0) =
      some #v[0x1C7D7513, 0xD6819C6A, 0x5AA53F75, 0x374943A7] ∧
    wAfter .round3_0 #v[0x13707036, 0xA2205F1F, 0x1C31C384, 0xAE7813DB] (oneWord 5 0) =
      some #v[0xDF63EAA1, 0xA2205F1F, 0x1C31C384, 0xAE7813DB] ∧
    wAfter .round4_0 #v[0x3F55EDFD, 0xCA7D2DBD, 0x68D84EA2, 0x22A31F54] (oneWord 0 0x80) =
      some #v[0x93AA2577, 0xCA7D2DBD, 0x68D84EA2, 0x22A31F54] := by
  decide

/-- Round1..4OperationsExecute: a row at an end of the tables of rounds 2 and 3. -/
theorem witness_rows :
    (⟨.round2_0, 17, 0, 1, 2, 3, 1, 5, 0xF61E2562⟩ : RoundRow) ∈ rowsOfRound2 ∧
    (⟨.round3_15, 48, 1, 2, 3, 0, 2, 23, 0xC4AC5665⟩ : RoundRow) ∈ rowsOfRound3 := by
  decide

/-- RoundStepFormula: the first operation, and the last, whose clause is the other one. V-OP-1 and V-OP-19
give `f`, `u`, `v`. -/
theorem witness_roundStepFormula :
    (padded .sRound abc).ph = .sRound ∧ (padded .sRound abc).idx.toNat + 1 = 1 ∧
    ((padded .sRound abc).setIdx 63).idx.toNat + 1 = 64 ∧
    1 = (1 + 15) / 16 ∧ 0 = (1 - 1) % 16 ∧ (0 : BitVec 2).toNat = (1 - 1) % 4 ∧
    4 = (64 + 15) / 16 ∧ 15 = (64 - 1) % 16 ∧ (3 : BitVec 2).toNat = (64 - 1) % 4 := by
  decide

/-- RoundOperationsFrame: a round operation that goes on, and a register that is not its target. -/
theorem witness_roundFrame :
    (∃ t, exec (roundInstr 1 11) (padded .sRound abc) = .next t) ∧
    (2 : Fin 4) ≠ (roles ((11 : BitVec 4).extractLsb' 0 2)).target :=
  ⟨⟨_, rfl⟩, by decide⟩

/-- RoundOperationsAreInjective: two states that differ, agree on `X`, and reach the same `W`. -/
theorem witness_roundsInjective :
    ∃ s s' t t', exec (roundInstr 0 0) s = .next t ∧ exec (roundInstr 0 0) s' = .next t' ∧
      s.x = s'.x ∧ t.w = t'.w ∧ s ≠ s' :=
  ⟨State.reset, State.reset.setN 1, _, _, rfl, rfl, rfl, rfl, by decide⟩

/-- FoldExecutes: a state for each clause, and where they meet: the last chunk but one and the last. -/
theorem witness_fold :
    (0 + 1 < 128 / 64) ∧ ¬(1 + 1 < 128 / 64) ∧
    ((State.reset.setL 128).setJ 1).j + 1 = ((State.reset.setL 128).setJ 1).l / 64 := by
  decide

/-- PadExecutes: a message that is readable, with a byte in each range its clauses speak of. -/
theorem witness_padExecutes :
    (withMessage .sPad abc).AllReadable .msg 0 (withMessage .sPad abc).n ∧
    2 < (withMessage .sPad abc).n ∧ (withMessage .sPad abc).n < 4 ∧ 4 + 9 ≤ padLen 3 ∧ 55 + 9 ≤ padLen 3 ∧ 7 < 8 := by
  unfold State.AllReadable
  decide

/-- PadExecutes, DecodeExecutes, FoldExecutes, EncodeExecutes: a state each worked example speaks of. -/
theorem witness_workedExamples :
    (withMessage .sPad abc).n = 3 ∧ (withMessage .sPad abc).readBytes .msg 0 3 = .ok [0x61, 0x62, 0x63] ∧
    (padded .sDecode abc).j = 0 ∧ (padded .sDecode abc).readBytes .pb 0 4 = .ok [0x61, 0x62, 0x63, 0x80] ∧
    (∃ t, exec .decode (padded .sDecode abc) = .next t) ∧
    ((padded .sFold abc).setH iv).h = #v[0x67452301, 0xEFCDAB89, 0x98BADCFE, 0x10325476] ∧
    (padded .sFold abc).l = 64 ∧ (List.replicate 16 (0x5A : Byte)).length = 16 :=
  ⟨rfl, rfl, rfl, rfl, ⟨_, rfl⟩, rfl, rfl, rfl⟩

/-- PadExecutes: the empty message, for which nothing need be readable. -/
theorem witness_padEmpty : (withMessage .sPad []).AllReadable .msg 0 (withMessage .sPad []).n := by
  unfold State.AllReadable
  decide

/-- PadFrame, PaddingIsInjective: two states that `PAD` goes on from, with equal `PB` after it. -/
theorem witness_padInjective :
    ∃ s s' t t', exec .pad s = .next t ∧ exec .pad s' = .next t' ∧ t.pb = t'.pb ∧ s ≠ s' :=
  ⟨withMessage .sPad abc, (withMessage .sPad abc).setJ 1, _, _, rfl, rfl, rfl, by decide⟩

/-- PaddedLengthIsLeast: lengths on both sides of the corner. -/
theorem witness_paddedLength :
    55 % 64 ≤ 55 ∧ 56 ≤ 56 % 64 ∧ 64 % 64 = 0 ∧ 55 + 9 ≤ 64 ∧ ¬56 + 9 ≤ 64 := by
  decide

/-- DecodeExecutes: a readable chunk, the last of two. -/
theorem witness_decodeExecutes :
    ((padded .sDecode rising).setJ 1).AllReadable .pb (64 * 1) (64 * 1 + 64) := by
  unfold State.AllReadable
  decide

/-- DecodeRoundTrip: `DECODE` goes on; a chunk that holds the bytes of a tuple. -/
theorem witness_decodeRoundTrip :
    (∃ t, exec .decode (padded .sDecode abc) = .next t) ∧
    ∀ (i : Fin 16) (k : Nat), k < 4 →
      (padded .sDecode abc).readByte .pb (64 * 0 + 4 * i + k) = .ok (byteOf k abcWords[i]) :=
  ⟨⟨_, rfl⟩, by decide⟩

/-- LastWordsAreTheLength: `PAD`, then `DECODE` of the last chunk. -/
theorem witness_lastWords :
    ∃ t u, exec .pad (withMessage .sPad abc) = .next t ∧
      exec .decode (t.setJ (t.l / 64 - 1)) = .next u :=
  ⟨_, _, rfl, rfl⟩

/-- UnreadableBytesFault: a message byte without value; a chunk byte without value, and one outside `PB`. -/
theorem witness_unreadable :
    ((0 < (State.reset.setN 1).n) ∧ (State.reset.setN 1).readable .msg 0 = false) ∧
    ((State.reset.setL 64).readable .pb 63 = false ∧ 63 < (State.reset.setL 64).l) ∧
    (State.reset.readable .pb 0 = false ∧ State.reset.l ≤ 0) ∧
    exec .decode ((padded .sDecode abc).setJ 1) = .fault (.outOfRange .pb 64) := by
  refine ⟨by decide, by decide, by decide, rfl⟩

/-- EncodeExecutes: an address of each space that is not stored to, and the first past `DG`. -/
theorem witness_encode :
    ¬(Space.msg = .dg ∧ 0 < 16) ∧ ¬(Space.dg = .dg ∧ 16 < 16) ∧
    (exec .encode (digested .sEncode abc)) ≠ .fault (.unwritten .dg 0) := by
  refine ⟨by decide, by decide, fun h => by cases h⟩

/-- RegisterOperationsKeepMemory: `FOLD`, which is neither `PAD` nor `ENCODE`, goes on. -/
theorem witness_keepMemory : Instr.fold ≠ .pad ∧ Instr.fold ≠ .encode ∧ ∃ t, exec .fold (padded .sFold abc) = .next t :=
  ⟨by decide, by decide, _, rfl⟩

/-- StepRunsSelectedOperation: a code selected and decoded. -/
theorem witness_stepRuns :
    opcode (padded .sRound abc).ph 0x1B = some 0x1B ∧ decodeCode 0x1B = .ok .round2_11 := by
  decide

/-- SequencerTransitions, ControlIgnoresData, OnlyTheNamedWriters: a step that goes on in each busy phase, and
for the two clauses of `S_ROUND` and of `S_FOLD` a state each. -/
theorem witness_transitions :
    (nextOf (step (withMessage .sInit abc))).map (fun t => t.ph) = some .sPad ∧
    (nextOf (step (withMessage .sPad abc))).map (fun t => t.ph) = some .sDecode ∧
    (nextOf (step (padded .sDecode abc))).map (fun t => t.ph) = some .sSnap ∧
    (nextOf (step (padded .sSnap abc))).map (fun t => t.ph) = some .sRound ∧
    (nextOf (step ((padded .sRound abc).setIdx 62))).map (fun t => (t.ph, t.opIndex)) = some (.sRound, 64) ∧
    (nextOf (step ((padded .sRound abc).setIdx 63))).map (fun t => t.ph) = some .sFold ∧
    (nextOf (step (padded .sFold rising))).map (fun t => (t.ph, t.j)) = some (.sDecode, 1) ∧
    (nextOf (step (padded .sFold abc))).map (fun t => (t.ph, t.j)) = some (.sEncode, 0) ∧
    (nextOf (step (padded .sEncode abc))).map (fun t => t.ph) = some .done := by
  decide

/-- OnlyTheNamedWriters: each register is written by one of its writers. -/
theorem witness_writers :
    (nextOf (step (withMessage .sInit abc))).map (fun t => t.h) ≠ some (withMessage .sInit abc).h ∧
    (nextOf (step (padded .sDecode abc))).map (fun t => t.x) ≠ some (padded .sDecode abc).x ∧
    (nextOf (step (padded .sRound abc))).map (fun t => t.w) ≠ some (padded .sRound abc).w ∧
    (nextOf (step (State.reset.setPending [.start abc]))).map (fun t => t.n) ≠ some State.reset.n := by
  decide

/-- ControlIgnoresData: two states that differ in their data and agree on the control registers. -/
theorem witness_control :
    (padded .sFold abc).ph.busy = true ∧
    padded .sFold [1, 2, 3] ≠ padded .sFold abc ∧ (padded .sFold [1, 2, 3]).l = (padded .sFold abc).l ∧
    (padded .sFold [1, 2, 3]).n = (padded .sFold abc).n := by
  decide

/-- StartTakesTheMessage: in `IDLE` and in `DONE`, with `MAX_N` at its bound. -/
theorem witness_start :
    ((State.reset.setMaxN (some 3)).setPending [.start abc]).ph = .idle ∧
    ((digested .done abc).setPending [.start abc]).ph = .done ∧
    (∀ k, (State.reset.setMaxN (some 3)).maxN = some k → abc.length ≤ k) ∧
    (∀ k, State.reset.maxN = some k → abc.length ≤ k) ∧ 2 < abc.length :=
  ⟨rfl, rfl, fun k h => by cases h; decide, fun k h => by simp [State.reset, Config.defaultMaxN] at h, by decide⟩

/-- StartIsNotEnabled: a step that goes on in a busy phase; a message one byte longer than `MAX_N`. -/
theorem witness_startNotEnabled :
    (padded .sRound abc).ph.busy = true ∧ (∃ t, step (padded .sRound abc) = .next t) ∧
    ((State.reset.setMaxN (some 2)).setPending [.start abc]).maxN = some 2 ∧ 2 < abc.length :=
  ⟨by decide, ⟨_, rfl⟩, rfl, by decide⟩

/-- ReadReturnsTheDigest: `DONE` with a digest and two `READ`s to come, and a `READ` in `IDLE`. -/
theorem witness_read :
    (digested .done abc).AllReadable .dg 0 16 ∧
    ((digested .done abc).setPending [.read, .read]).pending = [.read, .read] ∧
    (State.reset.setPending [.read]).ph = .idle := by
  unfold State.AllReadable
  decide

/-- ReadReturnsTheDigest, second clause: both steps go on. -/
theorem witness_readTwice :
    ∃ t u, step ((digested .done abc).setPending [.read, .read]) = .next t ∧ step t = .next u :=
  ⟨_, _, rfl, rfl⟩

/-- WaitingKeepsAllState: nothing to come in `IDLE` and in `DONE`. -/
theorem witness_waiting :
    State.reset.ph = .idle ∧ State.reset.pending = [] ∧ (digested .done abc).ph = .done ∧
    (digested .done abc).pending = [] := by
  decide

/-- StepKeepsInvariantAndNeverStops, RunReachesDone, RunFollowsTheSchedule: the invariant holds in a state of each
phase. -/
theorem witness_inv_reset : State.reset.Inv :=
  ⟨by decide, trivial⟩

theorem witness_inv_init : (withMessage .sInit abc).Inv ∧ (withMessage .sInit abc).ph = .sInit ∧ 0 < runLength 3 :=
  ⟨⟨by decide, by show State.AllReadable _ _ _ _; unfold State.AllReadable; decide⟩, rfl, by decide⟩

theorem witness_inv_pad : (withMessage .sPad []).Inv :=
  ⟨by decide, by show State.AllReadable _ _ _ _; unfold State.AllReadable; decide⟩

theorem witness_inv_decode : ((padded .sDecode rising).setJ 1).Inv :=
  ⟨by decide, rfl, by decide, by unfold State.AllReadable; decide⟩

theorem witness_inv_snap : (padded .sSnap abc).Inv :=
  ⟨by decide, rfl, by decide, by unfold State.AllReadable; decide⟩

theorem witness_inv_round : ((padded .sRound abc).setIdx 63).Inv :=
  ⟨by decide, rfl, by decide, by unfold State.AllReadable; decide⟩

theorem witness_inv_fold : (digested .sFold abc).Inv :=
  ⟨by decide, rfl, by decide, by unfold State.AllReadable; decide, rfl⟩

theorem witness_inv_encode : (digested .sEncode abc).Inv :=
  ⟨by decide, rfl, by decide, rfl⟩

theorem witness_inv_done : (digested .done abc).Inv :=
  ⟨by decide, rfl, by decide, rfl, by unfold State.AllReadable; decide⟩

/-- ChunkTurnFoldsTheCompression: a chunk with another to come, and the last one. -/
theorem witness_chunkTurn :
    (padded .sSnap abc).ph = .sSnap ∧ (padded .sDecode rising).j + 1 < (padded .sDecode rising).l / 64 ∧
    ((padded .sDecode rising).setJ 1).j + 1 = ((padded .sDecode rising).setJ 1).l / 64 ∧
    (padded .sDecode rising).memWf = true := by
  decide

/-- RunReachesDone: the ends of the two ranges of lengths. -/
theorem witness_runLengths : [0, 55, 56, 119].map runLength = [70, 70, 137, 137] := by
  decide

/-- PaddedBufferHolds: `PAD` goes on with an address in each of its four ranges; `FOLD` is another operation. -/
theorem witness_paddedBuffer :
    (∃ t, exec .pad (withMessage .sPad abc) = .next t ∧ 63 < t.l) ∧ Instr.fold ≠ .pad ∧
    (2 < 3 ∧ ¬3 < 3 ∧ (55 : Nat) + 9 ≤ 64 ∧ ¬(56 : Nat) + 9 ≤ 64) :=
  ⟨⟨_, rfl, by decide⟩, by decide, by decide⟩

/-- StepKeepsMemoryCanonical: a state that `PAD` writes memory in. -/
theorem witness_memory : (withMessage .sPad abc).memWf = true ∧ ∃ t, step (withMessage .sPad abc) = .next t :=
  ⟨by decide, _, rfl⟩

/-- StopsAreMemoryReads: a step that faults in each of the three places. -/
theorem witness_stops :
    faultOf (step ((State.reset.setN 1).setPh .sPad)) = some (.unwritten .msg 0) ∧
    faultOf (step (State.reset.setPh .sDecode)) = some (.outOfRange .pb 0) ∧
    faultOf (step ((State.reset.setPh .done).setPending [.read])) = some (.unwritten .dg 0) := by
  decide

/-- LiveStateDecides: two states of the invariant in `S_DECODE` that agree on what is live there and differ. -/
theorem witness_live :
    (padded .sDecode abc).Inv ∧ (padded .sDecode abc).ph.busy = true ∧
    (padded .sDecode abc).LiveEq ((padded .sDecode abc).setW iv) ∧
    (padded .sDecode abc) ≠ (padded .sDecode abc).setW iv ∧ ∃ t, step (padded .sDecode abc) = .next t :=
  ⟨⟨by decide, rfl, by decide, by unfold State.AllReadable; decide⟩, by decide,
    ⟨rfl, rfl, rfl, fun _ _ => rfl, rfl⟩, by decide, _, rfl⟩

/-- ReadReturnsDigestOfMessage, EndOfRunRegisters: a `START` and a `READ` to come, after reset and in `DONE`. -/
theorem witness_digest :
    (State.reset.setPending [.start abc, .read]).ph = .idle ∧
    (State.reset.setPending [.start abc, .read]).pending = [.start abc, .read] ∧
    (∀ k, (State.reset.setPending [.start abc, .read]).maxN = some k → abc.length ≤ k) ∧
    ((digested .done rising).setPending [.start abc, .read]).ph = .done :=
  ⟨rfl, rfl, fun k h => by simp [State.setPending, State.reset, Config.defaultMaxN] at h, rfl⟩

/-- CoresAreIndependent: two cores, one that computes and one that waits; a step of each. -/
theorem witness_cores :
    (0 : Nat) ≠ 1 ∧ ∃ a ab, Cores.stepAt 0 [padded .sRound abc, State.reset] = .next a ∧
      Cores.stepAt 1 a = .next ab :=
  ⟨by decide, _, _, rfl, rfl⟩

end Sys2Proof.Tests
end

section
/-! ## Proofs: words, tables and look-up (00_scope.md R8) -/

namespace Sys2Proof.Machine

/-! ### `rotl32` -/

/-- R8's movement of bits: bit `b` of the word stands at bit `(b + s) mod 32` of the rotated word. -/
theorem getLsbD_rotl32 (v : Word) {s b : Nat} (hs : s < 32) (hb : b < 32) :
    (rotl32 v s).getLsbD ((b + s) % 32) = v.getLsbD b := by
  rw [rotl32_eq_rotateLeft v hs, BitVec.getLsbD_rotateLeft_of_le hs]
  rcases Nat.lt_or_ge (b + s) 32 with stays | wraps
  · have hi : (b + s) % 32 = b + s := Nat.mod_eq_of_lt stays
    simp [hi, stays]
  · have hi : (b + s) % 32 = b + s - 32 := by omega
    have hlt : b + s - 32 < s := by omega
    have hback : 32 - s + (b + s - 32) = b := by omega
    simp [hi, hlt, hback]

/-- R8's value of a rotate. The bits that stay are a multiple of `2^s` and those that wrap are below `2^s`, so
their disjunction is their sum. -/
theorem toNat_rotl32 (v : Word) {s : Nat} (hs : s < 32) :
    (rotl32 v s).toNat = (v.toNat * 2 ^ s) % 2 ^ 32 + v.toNat / 2 ^ (32 - s) := by
  have hpow : 2 ^ 32 = 2 ^ (32 - s) * 2 ^ s := by rw [← Nat.pow_add]; congr 1; omega
  have hstay : (v.toNat * 2 ^ s) % 2 ^ 32 = (v.toNat % 2 ^ (32 - s)) <<< s := by
    rw [hpow, Nat.mul_mod_mul_right, Nat.shiftLeft_eq]
  have hwrap : v.toNat / 2 ^ (32 - s) < 2 ^ s := Nat.div_lt_of_lt_mul (hpow ▸ v.isLt)
  calc (rotl32 v s).toNat
      = (v.toNat * 2 ^ s) % 2 ^ 32 ||| v.toNat / 2 ^ (32 - s) := by
        rw [rotl32, BitVec.toNat_or, BitVec.toNat_shiftLeft, BitVec.toNat_ushiftRight,
          Nat.shiftLeft_eq, Nat.shiftRight_eq_div_pow]
    _ = (v.toNat * 2 ^ s) % 2 ^ 32 + v.toNat / 2 ^ (32 - s) := by
        rw [hstay, Nat.shiftLeft_add_eq_or_of_lt hwrap]

/-- Settles O7: the two readings of R8's rotate, by bits and by value. -/
theorem rotateMovesEveryBit : Obligations.RotateMovesEveryBit := by
  intro v s _ hs
  exact ⟨fun _ hb => getLsbD_rotl32 v hs hb, toNat_rotl32 v hs⟩

/-! ### `le32` and `byte_k` -/

/-- `byte_k(v) = floor(v / 2^(8k)) mod 256`, for a value of any width (R8). -/
theorem toNat_byteOf {m : Nat} (k : Nat) (v : BitVec m) :
    (byteOf k v).toNat = v.toNat / 2 ^ (8 * k) % 256 := by
  rw [byteOf, BitVec.extractLsb'_toNat, Nat.shiftRight_eq_div_pow]

/-- An append with a byte below: the part above counts in units of `2^8`. -/
theorem toNat_append_byte {m : Nat} (x : BitVec m) (b : Byte) :
    (x ++ b).toNat = 2 ^ 8 * x.toNat + b.toNat := by
  rw [BitVec.toNat_append, ← Nat.shiftLeft_add_eq_or_of_lt b.isLt, Nat.shiftLeft_eq, Nat.mul_comm]

/-- The value of `le32`, first byte least significant (R8, R50). -/
theorem toNat_le32 (b0 b1 b2 b3 : Byte) :
    (le32 b0 b1 b2 b3).toNat = b0.toNat + 2 ^ 8 * b1.toNat + 2 ^ 16 * b2.toNat + 2 ^ 24 * b3.toNat := by
  rw [le32, toNat_append_byte, toNat_append_byte, toNat_append_byte]
  omega

/-- The bytes of `le32` are its arguments (R50): each byte is below `2^8`, so the quotients and remainders of
the value give them back. -/
theorem bytesOfWord_le32 (b0 b1 b2 b3 : Byte) : bytesOfWord (le32 b0 b1 b2 b3) = [b0, b1, b2, b3] := by
  have hv := toNat_le32 b0 b1 b2 b3
  have byte_eq (k : Nat) (b : Byte) (h : (le32 b0 b1 b2 b3).toNat / 2 ^ (8 * k) % 256 = b.toNat) :
      byteOf k (le32 b0 b1 b2 b3) = b :=
    BitVec.eq_of_toNat_eq ((toNat_byteOf k _).trans h)
  rw [bytesOfWord, byte_eq 0 b0 (by omega), byte_eq 1 b1 (by omega), byte_eq 2 b2 (by omega),
    byte_eq 3 b3 (by omega)]

/-- `le32` of the bytes of a word is the word (R50): both have the same value. -/
theorem le32_byteOf (v : Word) : le32 (byteOf 0 v) (byteOf 1 v) (byteOf 2 v) (byteOf 3 v) = v := by
  apply BitVec.eq_of_toNat_eq
  simp only [toNat_le32, toNat_byteOf]
  omega

/-- Settles O8: `le32` and `byte_k` by their values, and that each undoes the other. -/
theorem wordsAreLittleEndian : Obligations.WordsAreLittleEndian :=
  ⟨fun b0 b1 b2 b3 => ⟨toNat_le32 b0 b1 b2 b3, bytesOfWord_le32 b0 b1 b2 b3⟩,
    fun v k _ => toNat_byteOf k v, le32_byteOf⟩

end Sys2Proof.Machine
end

section
/-! ## Proofs: the state, its agents and its writers (10_state.md) -/

namespace Sys2Proof.Machine

/-! ### The state after reset -/

/-- R36: after reset every space is empty. -/
theorem State.reset_cells (sp : Space) : State.reset.cells sp = [] := by
  cases sp <;> rfl

/-- Settles O46: an empty memory lists no address, so no address is readable. -/
theorem resetState : Obligations.ResetState := by
  obtain ⟨hmsg, hpb, hdg⟩ := State.reset_memories_wf
  have hwf : State.reset.memWf = true := by simp [State.memWf, hmsg, hpb, hdg]
  have hget (sp : Space) (a : Nat) : (State.reset.cells sp).get a = none := by
    rw [State.reset_cells, Memory.get]
  have hread (sp : Space) (a : Nat) : State.reset.readable sp a = false := by
    simp [← Bool.not_eq_true, State.readable_iff, State.readByte_ok, hget]
  exact ⟨rfl, fun sp a => ⟨hget sp a, hread sp a⟩, hwf, hwf, trivial⟩

/-! ### Which agent is enabled -/

/-- R26: the phases in which the core waits for the host. -/
theorem Phase.busy_eq_false {p : Phase} : p.busy = false ↔ p = .idle ∨ p = .done := by
  cases p <;> decide

/-- The sequencer selects a code exactly in the busy phases (R81). -/
theorem exists_opcode_iff_busy (ph : Phase) (idx : BitVec 6) :
    (∃ c, opcode ph idx = some c) ↔ ph.busy = true := by
  cases ph <;> simp [opcode, Phase.busy, Phase.status]

/-- In a busy phase no host transaction is enabled (R181, R182). -/
theorem State.hostMove_of_busy {s : State} (h : s.ph.busy = true) : s.hostMove = .next s := by
  rcases hp : s.pending with _ | ⟨m | _, rest⟩
  · exact State.hostMove_nil hp
  · have hstart : s.startEnabled m = false := by simp [State.startEnabled, h]
    simp [State.hostMove_start hp, hstart]
  · have hread : s.ph ≠ .done := by intro hd; simp [hd, Phase.busy, Phase.status] at h
    simp [State.hostMove_read hp, hread]

/-- In `IDLE` and `DONE` the step is the host's move (R40). -/
theorem step_of_not_busy {s : State} (h : s.ph.busy = false) : step s = s.hostMove := by
  rcases Phase.busy_eq_false.mp h with hph | hph <;> rw [step_by_phase, hph]

/-- Settles O41: the busy phases are the core's, `IDLE` and `DONE` the host's. -/
theorem oneAgentIsEnabled : Obligations.OneAgentIsEnabled := fun s =>
  ⟨(exists_opcode_iff_busy s.ph s.idx).symm, State.hostMove_of_busy, Phase.busy_eq_false,
    step_of_not_busy⟩

/-! ### Who writes what -/

/-- All the host's move can answer with a next state: nothing moved, a START, or a READ (R180, R182). -/
theorem State.hostMove_next {s t : State} (h : s.hostMove = .next t) :
    t = s ∨
      (∃ m rest, s.pending = .start m :: rest ∧ s.startEnabled m = true ∧
        t = (s.start m).setPending rest) ∨
      (∃ rest bs, s.pending = .read :: rest ∧ s.ph = .done ∧ s.readDigest = .ok bs ∧
        t = (s.setDelivered (s.delivered ++ [bs])).setPending rest) := by
  rcases hp : s.pending with _ | ⟨m | _, rest⟩
  · rw [State.hostMove_nil hp] at h
    cases h
    exact .inl rfl
  · rw [State.hostMove_start hp] at h
    cases h
    by_cases hen : s.startEnabled m = true
    · exact .inr (.inl ⟨m, rest, rfl, hen, if_pos hen⟩)
    · exact .inl (if_neg hen)
  · rw [State.hostMove_read hp] at h
    split at h
    case isTrue hdone =>
      obtain ⟨bs, hbs, rfl⟩ := andThen_next.mp h
      exact .inr (.inr ⟨rest, bs, rfl, hdone, hbs, rfl⟩)
    case isFalse =>
      cases h
      exact .inl rfl

/-- The host's move writes no register of the core but `N`, `MSG` and `PH`, and those by a START alone
(R180, R182). -/
theorem State.hostMove_frame {s t : State} (h : s.hostMove = .next t) :
    t.h = s.h ∧ t.w = s.w ∧ t.x = s.x ∧ t.j = s.j ∧ t.idx = s.idx ∧ t.l = s.l ∧ t.pb = s.pb ∧
      t.dg = s.dg ∧ t.maxN = s.maxN ∧
      (t.n ≠ s.n ∨ t.msg ≠ s.msg → ∃ m rest, s.pending = .start m :: rest ∧ t.pending = rest) := by
  obtain rfl | ⟨m, rest, hp, -, rfl⟩ | ⟨rest, bs, hp, -, -, rfl⟩ := State.hostMove_next h
  · simp
  · simp [State.start, hp]
  · simp

/-- Settles O40: phase by phase, what the one enabled operation writes. -/
theorem onlyTheNamedWriters : Obligations.OnlyTheNamedWriters := by
  intro s t h
  cases hph : s.ph <;> simp only [step_by_phase, hph] at h
  case sInit => simp [execInit_next.mp h]
  case sPad => obtain ⟨m, -, rfl⟩ := execPad_next.mp h; simp
  case sDecode => obtain ⟨x, -, rfl⟩ := execDecode_next.mp h; simp
  case sSnap => simp [execSnap_next.mp h]
  case sRound => cases h; simp
  case sFold =>
    rcases execFold_cases s with ⟨-, e⟩ | ⟨-, e⟩ <;> rw [e] at h <;> cases h <;> simp
  case sEncode => simp [execEncode_next.mp h]
  case idle | done =>
    obtain ⟨hh, hw, hx, hj, hidx, hl, hpb, hdg, hmaxN, hmsg⟩ := State.hostMove_frame h
    simpa [hh, hw, hx, hj, hidx, hl, hpb, hdg, hmaxN] using hmsg

end Sys2Proof.Machine
end

section
/-! ## Proofs: reads that fault (10_state.md R36, 20_memory.md R57) -/

namespace Sys2Proof.Machine

/-- The two reasons a byte has no answer: it has no value, or the space has no such address. -/
theorem State.readByte_error {s : State} {sp : Space} {a : Nat} {e : Fault}
    (h : s.readByte sp a = .error e) :
    (a < s.size sp ∧ e = .unwritten sp a) ∨ (s.size sp ≤ a ∧ e = .outOfRange sp a) := by
  rcases Nat.lt_or_ge a (s.size sp) with hlt | hge
  · cases hg : (s.cells sp).get a with
    | none => rw [State.readByte_unwritten hlt hg] at h; cases h; exact .inl ⟨hlt, rfl⟩
    | some v => rw [State.readByte_ok.mpr ⟨hlt, hg⟩] at h; cases h
  · rw [State.readByte_outOfRange hge] at h
    cases h
    exact .inr ⟨hge, rfl⟩

/-- A read of `k` bytes fails as one of them does. -/
theorem State.readBytes_error {s : State} {sp : Space} {a k : Nat} {e : Fault}
    (h : s.readBytes sp a k = .error e) :
    ∃ b, a ≤ b ∧ b < a + k ∧ s.readByte sp b = .error e := by
  induction k generalizing a with
  | zero => cases h
  | succ k ih =>
    simp only [State.readBytes] at h
    cases hv : s.readByte sp a with
    | error e' => simp only [hv] at h; cases h; exact ⟨a, by omega, by omega, hv⟩
    | ok v =>
      cases hvs : s.readBytes sp (a + 1) k with
      | error e' =>
        simp only [hv, hvs] at h
        cases h
        obtain ⟨b, hlo, hhi, hb⟩ := ih hvs
        exact ⟨b, by omega, by omega, hb⟩
      | ok vs => simp [hv, hvs] at h

/-- A word read fails as one of its four bytes does. -/
theorem State.readWord_error {s : State} {sp : Space} {a : Nat} {e : Fault}
    (h : s.readWord sp a = .error e) : ∃ b, a ≤ b ∧ b < a + 4 ∧ s.readByte sp b = .error e := by
  unfold State.readWord at h
  split at h
  case h_1 => cases h
  case h_2 e0 h0 => cases h; exact ⟨a, by omega, by omega, h0⟩
  case h_3 e1 h1 _ => cases h; exact ⟨a + 1, by omega, by omega, h1⟩
  case h_4 e2 h2 _ _ => cases h; exact ⟨a + 2, by omega, by omega, h2⟩
  case h_5 e3 h3 _ _ _ => cases h; exact ⟨a + 3, by omega, by omega, h3⟩

/-- A read of `k` words fails as one of their bytes does. -/
theorem State.readWords_error {s : State} {sp : Space} {a k : Nat} {e : Fault}
    (h : s.readWords sp a k = .error e) :
    ∃ b, a ≤ b ∧ b < a + 4 * k ∧ s.readByte sp b = .error e := by
  induction k with
  | zero => cases h
  | succ k ih =>
    simp only [State.readWords] at h
    cases hws : s.readWords sp a k with
    | error e' =>
      simp only [hws] at h
      cases h
      obtain ⟨b, hlo, hhi, hb⟩ := ih hws
      exact ⟨b, hlo, by omega, hb⟩
    | ok ws =>
      cases hv : s.readWord sp (a + 4 * k) with
      | error e' =>
        simp only [hws, hv] at h
        cases h
        obtain ⟨b, hlo, hhi, hb⟩ := State.readWord_error hv
        exact ⟨b, by omega, by omega, hb⟩
      | ok v => simp [hws, hv] at h

/-- A read of bytes that answers has read every byte. -/
theorem State.readable_of_readBytes {s : State} {sp : Space} {a k : Nat} {vs : List Byte}
    (h : s.readBytes sp a k = .ok vs) {b : Nat} (hlo : a ≤ b) (hhi : b < a + k) :
    s.readable sp b = true := by
  obtain ⟨hlen, hread⟩ := State.readBytes_ok.mp h
  obtain ⟨i, rfl⟩ := Nat.exists_eq_add_of_le hlo
  exact State.readable_iff.mpr ⟨_, hread i (by omega)⟩

/-- A read of words that answers has read every byte of every word. -/
theorem State.readable_of_readWords {s : State} {sp : Space} {a k : Nat} {ws : Vector Word k}
    (h : s.readWords sp a k = .ok ws) {b : Nat} (hlo : a ≤ b) (hhi : b < a + 4 * k) :
    s.readable sp b = true := by
  obtain ⟨b0, b1, b2, b3, h0, h1, h2, h3, -⟩ :=
    State.readWord_ok.mp (State.readWords_ok.mp h ((b - a) / 4) (by omega))
  have hb : b = a + 4 * ((b - a) / 4) ∨ b = a + 4 * ((b - a) / 4) + 1 ∨
      b = a + 4 * ((b - a) / 4) + 2 ∨ b = a + 4 * ((b - a) / 4) + 3 := by omega
  rw [State.readable_iff]
  rcases hb with e | e | e | e <;> rw [e]
  exacts [⟨b0, h0⟩, ⟨b1, h1⟩, ⟨b2, h2⟩, ⟨b3, h3⟩]

/-- All `andThen` can answer with a fault: the read's own. -/
theorem andThen_fault {α : Type} {r : Except Fault α} {k : α → State} {e : Fault} :
    andThen r k = .fault e ↔ r = .error e := by
  unfold andThen
  cases r <;> simp

/-- `PAD` faults exactly as its read of the message does (R100). -/
theorem execPad_fault {s : State} {e : Fault} :
    execPad s = .fault e ↔ s.readBytes .msg 0 s.n = .error e :=
  andThen_fault

/-- `DECODE` faults exactly as its read of the chunk does (R120). -/
theorem execDecode_fault {s : State} {e : Fault} :
    execDecode s = .fault e ↔ s.readWords .pb (64 * s.j) 16 = .error e :=
  andThen_fault

/-- A message byte that is not readable makes `PAD` fault on a message byte without value: every address below
`N` is one of `MSG` (R30). -/
theorem execPad_of_not_readable {s : State} {a : Nat} (ha : a < s.n) (h : s.readable .msg a = false) :
    ∃ b, b < s.n ∧ execPad s = .fault (.unwritten .msg b) := by
  cases hr : s.readBytes .msg 0 s.n with
  | ok vs => simp [State.readable_of_readBytes hr (Nat.zero_le a) (by omega)] at h
  | error e =>
    obtain ⟨b, -, hb, hbyte⟩ := State.readBytes_error hr
    have hbn : b < s.n := by omega
    obtain ⟨-, rfl⟩ | ⟨hge, -⟩ := State.readByte_error hbyte
    · exact ⟨b, hbn, execPad_fault.mpr hr⟩
    · exact absurd hbn (Nat.not_lt.mpr hge)

/-- A chunk byte that is not readable makes `DECODE` fault on a chunk byte, for the reason its address gives:
the size of `PB` is `L` (R30). -/
theorem execDecode_of_not_readable {s : State} {a : Nat} (hlo : 64 * s.j ≤ a) (hhi : a < 64 * s.j + 64)
    (h : s.readable .pb a = false) :
    ∃ b, 64 * s.j ≤ b ∧ b < 64 * s.j + 64 ∧
      ((b < s.l ∧ execDecode s = .fault (.unwritten .pb b)) ∨
        (s.l ≤ b ∧ execDecode s = .fault (.outOfRange .pb b))) := by
  cases hr : s.readWords .pb (64 * s.j) 16 with
  | ok ws => simp [State.readable_of_readWords hr hlo hhi] at h
  | error e =>
    obtain ⟨b, hblo, hbhi, hbyte⟩ := State.readWords_error hr
    refine ⟨b, hblo, hbhi, ?_⟩
    obtain ⟨hlt, rfl⟩ | ⟨hge, rfl⟩ := State.readByte_error hbyte
    · exact .inl ⟨hlt, execDecode_fault.mpr hr⟩
    · exact .inr ⟨hge, execDecode_fault.mpr hr⟩

/-- Settles O33: a read of several bytes fails exactly as one of them does. -/
theorem unreadableBytesFault : Obligations.UnreadableBytesFault :=
  ⟨fun _ _ ha h => execPad_of_not_readable ha h,
    fun _ _ hlo hhi h => execDecode_of_not_readable hlo hhi h⟩

end Sys2Proof.Machine
end

section
/-! ## Proofs: the live state decides (10_state.md R41)

Each lemma takes the row of R41's table for its phase and gives the row of the next phase. A register that a
row newly holds is one the operation has just written, from registers of the row before. -/

namespace Sys2Proof.Machine

/-! ### Reads of two states that agree -/

/-- A word read looks at four bytes: where two states agree on them, it answers the same. -/
theorem State.readWord_congr {s t : State} {sp : Space} {a : Nat}
    (h : ∀ i, i < 4 → t.readByte sp (a + i) = s.readByte sp (a + i)) :
    t.readWord sp a = s.readWord sp a := by
  have h0 : t.readByte sp a = s.readByte sp a := h 0 (by omega)
  simp only [State.readWord, h0, h 1 (by omega), h 2 (by omega), h 3 (by omega)]

/-- A read of `k` words looks at their `4k` bytes. -/
theorem State.readWords_congr {s t : State} {sp : Space} {a k : Nat}
    (h : ∀ i, i < 4 * k → t.readByte sp (a + i) = s.readByte sp (a + i)) :
    t.readWords sp a k = s.readWords sp a k := by
  induction k with
  | zero => rfl
  | succ k ih =>
    have hws : t.readWords sp a k = s.readWords sp a k := ih fun i hi => h i (by omega)
    have hv : t.readWord sp (a + 4 * k) = s.readWord sp (a + 4 * k) := State.readWord_congr fun i hi => by
      simpa only [Nat.add_assoc] using h (4 * k + i) (by omega)
    simp only [State.readWords, hws, hv]

/-- A chunk whose words were read lies below `L`. -/
theorem State.chunk_lt_of_readWords {s : State} {ws : Vector Word 16}
    (h : s.readWords .pb (64 * s.j) 16 = .ok ws) {i : Nat} (hi : i < 64) : 64 * s.j + i < s.l := by
  have hread := State.readable_of_readWords h (b := 64 * s.j + i) (by omega) (by omega)
  obtain ⟨v, hv⟩ := State.readable_iff.mp hread
  exact (State.readByte_ok.mp hv).1

/-- Where the same sixteen bytes were written to `DG`, it reads the same, whatever it held before (R170). -/
theorem State.sameReads_dg_of_setBytes {s t : State} {m m' : Memory} {bs : List Byte} (hlen : bs.length = 16)
    (hs : s.dg = m.setBytes 0 bs) (ht : t.dg = m'.setBytes 0 bs) : s.SameReads t .dg 16 := by
  intro a ha
  simp [State.readByte, State.size, State.cells, hs, ht, Memory.get_setBytes, hlen, ha]

/-! ### One lemma a phase -/

section Phases

variable {s s' t : State}

/-- `H` is written from a constant; `N` and `MSG` stay. -/
theorem execInit_liveEq (hn : s'.n = s.n) (hmsg : s.SameReads s' .msg s.n) (h : execInit s = .next t) :
    ∃ t', execInit s' = .next t' ∧ t.LiveEq t' := by
  obtain rfl := execInit_next.mp h
  exact ⟨_, execInit_next.mpr rfl, rfl, hn, hmsg, rfl⟩

/-- The message read is the same, so `PB` and `L` are written the same. -/
theorem execPad_liveEq (hn : s'.n = s.n) (hmsg : s.SameReads s' .msg s.n) (hh : s'.h = s.h)
    (h : execPad s = .next t) : ∃ t', execPad s' = .next t' ∧ t.LiveEq t' := by
  obtain ⟨m, hm, rfl⟩ := execPad_next.mp h
  have hm' : s'.readBytes .msg 0 s'.n = .ok m := by
    rw [hn, ← hm]
    exact State.readBytes_congr fun i hi => hmsg (0 + i) (by omega)
  refine ⟨_, execPad_next.mpr ⟨m, hm', rfl⟩, rfl, rfl, congrArg padLen hn, fun a _ => ?_, hh⟩
  apply State.readByte_congr
  · exact congrArg padLen hn
  · rfl

/-- The chunk that `s` has read lies below `L`, where `s'` reads the same. -/
theorem execDecode_liveEq (hj : s'.j = s.j) (hl : s'.l = s.l) (hpb : s.SameReads s' .pb s.l)
    (hh : s'.h = s.h) (h : execDecode s = .next t) : ∃ t', execDecode s' = .next t' ∧ t.LiveEq t' := by
  obtain ⟨x, hx, rfl⟩ := execDecode_next.mp h
  have hx' : s'.readWords .pb (64 * s'.j) 16 = .ok x := by
    rw [hj, ← hx]
    exact State.readWords_congr fun i hi => hpb _ (State.chunk_lt_of_readWords hx hi)
  exact ⟨_, execDecode_next.mpr ⟨x, hx', rfl⟩, rfl, hj, hl, hpb, hh, rfl⟩

/-- `W` is written from `H`, and `I` from a constant. -/
theorem execSnap_liveEq (hj : s'.j = s.j) (hl : s'.l = s.l) (hpb : s.SameReads s' .pb s.l)
    (hh : s'.h = s.h) (hx : s'.x = s.x) (h : execSnap s = .next t) :
    ∃ t', execSnap s' = .next t' ∧ t.LiveEq t' := by
  obtain rfl := execSnap_next.mp h
  exact ⟨_, execSnap_next.mpr rfl, rfl, hj, hl, hpb, hh, hx, hh, rfl⟩

/-- `W` is written from `W`, `X` and `I`; the operation leaves `S_ROUND` or stays there by `I` alone. -/
theorem roundOp_liveEq (hph : s.ph = .sRound) (hph' : s'.ph = .sRound) (hj : s'.j = s.j) (hl : s'.l = s.l)
    (hpb : s.SameReads s' .pb s.l) (hh : s'.h = s.h) (hx : s'.x = s.x) (hw : s'.w = s.w)
    (hidx : s'.idx = s.idx) : (s.roundOp s.idx).LiveEq (s'.roundOp s'.idx) := by
  have hwords : roundWords s'.idx s'.w s'.x = roundWords s.idx s.w s.x := by rw [hidx, hw, hx]
  rw [State.roundOp_spec, State.roundOp_spec, hwords, hidx, hph, hph']
  by_cases hlast : s.idx.toNat < 63
  · simp only [hlast, if_true]
    exact ⟨rfl, hj, hl, hpb, hh, hx, rfl, rfl⟩
  · simp only [hlast, if_false]
    exact ⟨rfl, hj, hl, hpb, hh, rfl⟩

/-- `H` is written from `H` and `W`; which way the loop goes depends on `J` and `L`. -/
theorem execFold_liveEq (hj : s'.j = s.j) (hl : s'.l = s.l) (hpb : s.SameReads s' .pb s.l)
    (hh : s'.h = s.h) (hw : s'.w = s.w) (h : execFold s = .next t) :
    ∃ t', execFold s' = .next t' ∧ t.LiveEq t' := by
  have hsum : addWords s'.h s'.w = addWords s.h s.w := by rw [hh, hw]
  rcases execFold_cases s with ⟨hmore, e⟩ | ⟨hlast, e⟩ <;>
    rcases execFold_cases s' with ⟨hmore', e'⟩ | ⟨hlast', e'⟩
  · cases e.symm.trans h
    exact ⟨_, e', rfl, congrArg (· + 1) hj, hl, hpb, hsum⟩
  · exact absurd (hj ▸ hl ▸ hmore) hlast'
  · exact absurd (hj ▸ hl ▸ hmore') hlast
  · cases e.symm.trans h
    exact ⟨_, e', rfl, hsum⟩

/-- All sixteen bytes of `DG` are written, from `H`. -/
theorem execEncode_liveEq (hh : s'.h = s.h) (h : execEncode s = .next t) :
    ∃ t', execEncode s' = .next t' ∧ t.LiveEq t' := by
  obtain rfl := execEncode_next.mp h
  refine ⟨_, execEncode_next.mpr rfl, rfl, ?_⟩
  have hbytes := digestBytes_length s.h
  rw [hh]
  exact State.sameReads_dg_of_setBytes (m := s.dg) (m' := s'.dg) hbytes rfl rfl

end Phases

/-- Settles O51: in each busy phase the operation reads only the live state of R41's row. That `s` steps at all
is enough; the invariant is not needed. -/
theorem liveStateDecides : Obligations.LiveStateDecides := by
  intro s s' t _ hbusy hlive h
  obtain ⟨hph', hlive⟩ := hlive
  cases hph : s.ph <;> simp only [step_by_phase, hph, hph'] at hlive h ⊢
  case idle | done => simp [hph, Phase.busy, Phase.status] at hbusy
  case sInit =>
    obtain ⟨hn, hmsg⟩ := hlive
    exact execInit_liveEq hn hmsg h
  case sPad =>
    obtain ⟨hn, hmsg, hh⟩ := hlive
    exact execPad_liveEq hn hmsg hh h
  case sDecode =>
    obtain ⟨hj, hl, hpb, hh⟩ := hlive
    exact execDecode_liveEq hj hl hpb hh h
  case sSnap =>
    obtain ⟨hj, hl, hpb, hh, hx⟩ := hlive
    exact execSnap_liveEq hj hl hpb hh hx h
  case sRound =>
    obtain ⟨hj, hl, hpb, hh, hx, hw, hidx⟩ := hlive
    cases h
    exact ⟨_, rfl, roundOp_liveEq hph (hph'.trans hph) hj hl hpb hh hx hw hidx⟩
  case sFold =>
    obtain ⟨hj, hl, hpb, hh, hw⟩ := hlive
    exact execFold_liveEq hj hl hpb hh hw h
  case sEncode => exact execEncode_liveEq hlive h

end Sys2Proof.Machine
end

section
/-! ## Proofs: what a step does to the spaces (20_memory.md) -/

namespace Sys2Proof.Machine

/-! ### The canonical form (R61) -/

theorem State.memWf_iff {s : State} :
    s.memWf = true ↔ s.msg.wf = true ∧ s.pb.wf = true ∧ s.dg.wf = true := by
  simp [State.memWf, and_assoc]

/-- All a step can do to the spaces: START fills `MSG` anew, `PAD` fills `PB` anew, `ENCODE` stores to `DG`
from address 0 on, and a space that is not written stays (R30, R55). -/
theorem step_spaces {s t : State} (h : step s = .next t) :
    (t.msg = s.msg ∨ ∃ m, t.msg = Memory.ofBytes 0 m) ∧
      (t.pb = s.pb ∨ ∃ bs, t.pb = Memory.ofBytes 0 bs) ∧
      (t.dg = s.dg ∨ ∃ bs, t.dg = s.dg.setBytes 0 bs) := by
  cases hph : s.ph <;> simp only [step_by_phase, hph] at h
  case sInit => simp [execInit_next.mp h]
  case sPad =>
    obtain ⟨m, -, rfl⟩ := execPad_next.mp h
    exact ⟨.inl rfl, .inr ⟨padBytes m, rfl⟩, .inl rfl⟩
  case sDecode => obtain ⟨x, -, rfl⟩ := execDecode_next.mp h; simp
  case sSnap => simp [execSnap_next.mp h]
  case sRound => cases h; simp
  case sFold =>
    rcases execFold_cases s with ⟨-, e⟩ | ⟨-, e⟩ <;> rw [e] at h <;> cases h <;> simp
  case sEncode =>
    obtain rfl := execEncode_next.mp h
    exact ⟨.inl rfl, .inl rfl, .inr ⟨digestBytes s.h, rfl⟩⟩
  case idle | done =>
    obtain rfl | ⟨m, rest, -, -, rfl⟩ | ⟨rest, bs, -, -, -, rfl⟩ := State.hostMove_next h
    · simp
    · exact ⟨.inr ⟨m, rfl⟩, .inl rfl, .inl rfl⟩
    · simp

/-- Settles O48: each way a step can write a space gives a strictly rising list. -/
theorem stepKeepsMemoryCanonical : Obligations.StepKeepsMemoryCanonical := by
  intro s t hwf h
  obtain ⟨hmsg, hpb, hdg⟩ := State.memWf_iff.mp hwf
  obtain ⟨hmsg', hpb', hdg'⟩ := step_spaces h
  refine State.memWf_iff.mpr ⟨?_, ?_, ?_⟩
  · rcases hmsg' with e | ⟨m, e⟩ <;> rw [e]
    exacts [hmsg, Memory.wf_ofBytes 0 m]
  · rcases hpb' with e | ⟨bs, e⟩ <;> rw [e]
    exacts [hpb, Memory.wf_ofBytes 0 bs]
  · rcases hdg' with e | ⟨bs, e⟩ <;> rw [e]
    exacts [hdg, Memory.wf_setBytes 0 bs hdg]

/-! ### Operations that store nothing (R55) -/

/-- A format-S code names the round operation of its fields (30_encoding.md R81). -/
theorem Instr.eq_roundInstr_of_fields {i : Instr} {rr : BitVec 2} {p : BitVec 4}
    (h : i.fields = .formatS rr p) : i = roundInstr rr p := by
  cases i <;> cases h <;> rfl

/-- A format-C code names one of the six sequencing operations (R81). -/
theorem Instr.sequencing_of_fields {i : Instr} {sub : BitVec 6} (h : i.fields = .formatC sub) :
    i = .init ∨ i = .pad ∨ i = .decode ∨ i = .snap ∨ i = .fold ∨ i = .encode := by
  cases i <;> cases h <;> simp

/-- Every operation but `PAD` and `ENCODE` leaves the three spaces and their sizes as they were. -/
theorem exec_frame_spaces {i : Instr} {s t : State} (hpad : i ≠ .pad) (hencode : i ≠ .encode)
    (h : exec i s = .next t) :
    t.n = s.n ∧ t.l = s.l ∧ t.msg = s.msg ∧ t.pb = s.pb ∧ t.dg = s.dg := by
  cases hf : i.fields with
  | formatS rr p =>
    rw [Instr.eq_roundInstr_of_fields hf, exec_roundInstr] at h
    cases h
    simp
  | formatC sub =>
    obtain rfl | rfl | rfl | rfl | rfl | rfl := Instr.sequencing_of_fields hf
    · simp [execInit_next.mp h]
    · exact absurd rfl hpad
    · obtain ⟨x, -, rfl⟩ := execDecode_next.mp h; simp
    · simp [execSnap_next.mp h]
    · change execFold s = .next t at h
      rcases execFold_cases s with ⟨-, e⟩ | ⟨-, e⟩ <;> rw [e] at h <;> cases h <;> simp
    · exact absurd rfl hencode

/-- Settles O35: what a byte reads as depends on the three spaces and their sizes only. -/
theorem registerOperationsKeepMemory : Obligations.RegisterOperationsKeepMemory := by
  intro i s t hpad hencode h
  obtain ⟨hn, hl, hmsg, hpb, hdg⟩ := exec_frame_spaces hpad hencode h
  exact State.readByte_of_same hn hl hmsg hpb hdg

/-! ### A space that holds exactly the given bytes -/

theorem State.readByte_of_ofBytes {s : State} {sp : Space} {bs : List Byte} (hsize : s.size sp = bs.length)
    (hcells : s.cells sp = Memory.ofBytes 0 bs) {a : Nat} {b : Byte} (h : bs[a]? = some b) :
    s.readByte sp a = .ok b := by
  obtain ⟨ha, -⟩ := List.getElem?_eq_some_iff.mp h
  refine State.readByte_ok.mpr ⟨hsize ▸ ha, ?_⟩
  simpa [hcells, Memory.get_ofBytes] using h

/-- Every byte of such a space is readable. -/
theorem State.allReadable_of_ofBytes {s : State} {sp : Space} {bs : List Byte}
    (hsize : s.size sp = bs.length) (hcells : s.cells sp = Memory.ofBytes 0 bs) :
    s.AllReadable sp 0 (s.size sp) := fun _ _ ha =>
  State.readable_iff.mpr
    ⟨_, State.readByte_of_ofBytes hsize hcells (List.getElem?_eq_getElem (hsize ▸ ha))⟩

/-- After `PAD`, `PB` and its size `L` are those of the padded message (R30, R100). -/
theorem execPad_buffer {s t : State} (h : execPad s = .next t) :
    ∃ m : List Byte, m.length = s.n ∧ t.size .pb = (padBytes m).length ∧
      t.cells .pb = Memory.ofBytes 0 (padBytes m) := by
  obtain ⟨m, hm, rfl⟩ := execPad_next.mp h
  obtain ⟨hlen, -⟩ := State.readBytes_ok.mp hm
  exact ⟨m, hlen, by rw [padBytes_length, hlen]; rfl, rfl⟩

/-- After `ENCODE` the sixteen bytes of `DG` are the digest's (R170). -/
theorem execEncode_readByte {s t : State} (h : execEncode s = .next t) {a : Nat} {b : Byte}
    (hb : (digestBytes s.h)[a]? = some b) : t.readByte .dg a = .ok b := by
  obtain rfl := execEncode_next.mp h
  obtain ⟨ha, -⟩ := List.getElem?_eq_some_iff.mp hb
  have hwritten : 0 ≤ a ∧ a < 0 + (digestBytes s.h).length := ⟨Nat.zero_le a, by omega⟩
  refine State.readByte_ok.mpr ⟨ha, ?_⟩
  rw [State.cells, Memory.get_setBytes, if_pos hwritten]
  exact hb

/-! ### The last words of the last chunk (R52) -/

/-- Word `i` of the decoded chunk is the word read at byte `4i` of the chunk (R120). -/
theorem execDecode_word {s t : State} (h : execDecode s = .next t) (i : Fin 16) :
    s.readWord .pb (64 * s.j + 4 * i) = .ok t.x[i] := by
  obtain ⟨x, hx, rfl⟩ := execDecode_next.mp h
  exact State.readWords_ok.mp hx i i.isLt

/-- After `PAD` the last eight bytes of `PB` are the length field (R102, R103). -/
theorem execPad_lengthField {s t : State} (h : execPad s = .next t) {k : Nat} (hk : k < 8) :
    t.readByte .pb (padLen s.n - 8 + k) = .ok (byteOf k (lengthField s.n)) := by
  obtain ⟨m, hlen, hsize, hcells⟩ := execPad_buffer h
  exact State.readByte_of_ofBytes hsize hcells (hlen ▸ padBytes_lengthField m k hk)

/-- The words that stand there, for `k = 0` and `k = 4`. -/
theorem execPad_lengthWord {s t : State} (h : execPad s = .next t) {k : Nat} (hk : k + 4 ≤ 8) :
    t.readWord .pb (padLen s.n - 8 + k) =
      .ok (le32 (byteOf k (lengthField s.n)) (byteOf (k + 1) (lengthField s.n))
        (byteOf (k + 2) (lengthField s.n)) (byteOf (k + 3) (lengthField s.n))) :=
  State.readWord_ok.mpr ⟨_, _, _, _, execPad_lengthField h (k := k) (by omega),
    execPad_lengthField h (k := k + 1) (by omega), execPad_lengthField h (k := k + 2) (by omega),
    execPad_lengthField h (k := k + 3) (by omega), rfl⟩

/-- `le32` of four consecutive bytes of a value is the 32 bits that begin at the first. -/
theorem toNat_le32_byteOf {m : Nat} (k : Nat) (v : BitVec m) :
    (le32 (byteOf k v) (byteOf (k + 1) v) (byteOf (k + 2) v) (byteOf (k + 3) v)).toNat =
      v.toNat / 2 ^ (8 * k) % 2 ^ 32 := by
  have shift (j : Nat) : v.toNat / 2 ^ (8 * (k + j)) = v.toNat / 2 ^ (8 * k) / 2 ^ (8 * j) := by
    rw [Nat.mul_add, Nat.pow_add, Nat.div_div_eq_div_mul]
  rw [toNat_le32]
  simp only [toNat_byteOf, shift]
  omega

/-- `PAD`, then `DECODE` of the last chunk: word `14 + i` stands at byte `4i` of the length field. -/
theorem execDecode_lastChunk {s t u : State} (hpad : execPad s = .next t)
    (hdecode : execDecode { t with j := t.l / 64 - 1 } = .next u) {k : Nat} {i : Fin 16}
    (hi : 4 * i.val = 56 + k) (hk : k + 4 ≤ 8) :
    u.x[i].toNat = 8 * s.n % 2 ^ 64 / 2 ^ (8 * k) % 2 ^ 32 := by
  have hl : t.l = padLen s.n := by obtain ⟨m, -, rfl⟩ := execPad_next.mp hpad; rfl
  have haddr : 64 * (t.l / 64 - 1) + 4 * i.val = padLen s.n - 8 + k := by
    rw [hl, hi]; unfold padLen; omega
  have hword : t.readWord .pb (64 * (t.l / 64 - 1) + 4 * i) = .ok u.x[i] := execDecode_word hdecode i
  rw [haddr, execPad_lengthWord hpad hk] at hword
  rw [← Except.ok.inj hword, toNat_le32_byteOf, lengthField, BitVec.toNat_ofNat]

/-- Settles O32: a chunk word is `le32` of its four bytes, and the length field's eight bytes make up the last
two words of the last chunk. -/
theorem lastWordsAreTheLength : Obligations.LastWordsAreTheLength := by
  refine ⟨fun s t h i => State.readWord_ok.mp (execDecode_word h i), fun s t u hpad hdecode => ?_⟩
  have low : u.x[14].toNat = _ := execDecode_lastChunk (i := 14) (k := 0) hpad hdecode rfl (by omega)
  have high : u.x[15].toNat = _ := execDecode_lastChunk (i := 15) (k := 4) hpad hdecode rfl (by omega)
  constructor <;> omega

end Sys2Proof.Machine
end

section
/-! ## Proofs: the invariant of a run (70_reset_and_hazards.md R222)

Each lemma takes the invariant's clause for its phase and gives a next state and the clause of that state's
phase. That the spaces stay canonical is `stepKeepsMemoryCanonical`, for every phase at once, so the lemmas
take it as given. -/

namespace Sys2Proof.Machine

section Phases

variable {s : State}

/-- `INIT` leaves `MSG` and `N`. -/
theorem execInit_inv (hmsg : s.AllReadable .msg 0 s.n) :
    ∃ t, execInit s = .next t ∧ (t.memWf = true → t.Inv) :=
  ⟨_, execInit_next.mpr rfl, fun hwf => ⟨hwf, hmsg⟩⟩

/-- The whole message is readable, so `PAD` goes on, and it has written every byte of `PB`. -/
theorem execPad_inv (hmsg : s.AllReadable .msg 0 s.n) :
    ∃ t, execPad s = .next t ∧ (t.memWf = true → t.Inv) := by
  obtain ⟨m, hm⟩ := State.readBytes_exists (s := s) (sp := .msg) (a := 0) (k := s.n)
    fun i hi => hmsg (0 + i) (by omega) (by omega)
  have h := execPad_next.mpr ⟨m, hm, rfl⟩
  obtain ⟨m', -, hsize, hcells⟩ := execPad_buffer h
  have hchunks : 0 < padLen s.n / 64 := by rw [padLen_div]; exact Nat.succ_pos _
  exact ⟨_, h, fun hwf => ⟨hwf, rfl, hchunks, State.allReadable_of_ofBytes hsize hcells⟩⟩

/-- Chunk `J` lies below `L`, so `DECODE` goes on. -/
theorem execDecode_inv (hl : s.l = padLen s.n) (hj : s.j < s.l / 64) (hpb : s.AllReadable .pb 0 s.l) :
    ∃ t, execDecode s = .next t ∧ (t.memWf = true → t.Inv) := by
  obtain ⟨x, hx⟩ := State.readWords_exists (s := s) (sp := .pb) (a := 64 * s.j) (k := 16)
    fun i hi => hpb (64 * s.j + i) (by omega) (by omega)
  exact ⟨_, execDecode_next.mpr ⟨x, hx, rfl⟩, fun hwf => ⟨hwf, hl, hj, hpb⟩⟩

/-- `SNAP` leaves `J`, `L`, `N` and `PB`. -/
theorem execSnap_inv (hl : s.l = padLen s.n) (hj : s.j < s.l / 64) (hpb : s.AllReadable .pb 0 s.l) :
    ∃ t, execSnap s = .next t ∧ (t.memWf = true → t.Inv) :=
  ⟨_, execSnap_next.mpr rfl, fun hwf => ⟨hwf, hl, hj, hpb⟩⟩

/-- A round operation goes to `S_FOLD` only from `I = 64`, and leaves `I` there. -/
theorem roundOp_inv (hph : s.ph = .sRound) (hl : s.l = padLen s.n) (hj : s.j < s.l / 64)
    (hpb : s.AllReadable .pb 0 s.l) (hwf : (s.roundOp s.idx).memWf = true) : (s.roundOp s.idx).Inv := by
  refine ⟨hwf, ?_⟩
  rw [State.roundOp_spec, hph]
  by_cases hlast : s.idx.toNat < 63
  · simp only [hlast, if_true]
    exact ⟨hl, hj, hpb⟩
  · simp only [hlast, if_false]
    exact ⟨hl, hj, hpb, BitVec.eq_of_toNat_eq (by simp; omega)⟩

/-- `FOLD` goes on to the next chunk while there is one; else `J` is the last chunk's. -/
theorem execFold_inv (hl : s.l = padLen s.n) (hj : s.j < s.l / 64) (hpb : s.AllReadable .pb 0 s.l)
    (hidx : s.idx = 63) : ∃ t, execFold s = .next t ∧ (t.memWf = true → t.Inv) := by
  rcases execFold_cases s with ⟨hmore, e⟩ | ⟨hlast, e⟩
  · exact ⟨_, e, fun hwf => ⟨hwf, hl, hmore, hpb⟩⟩
  · have hj' : s.j + 1 = s.l / 64 := by omega
    exact ⟨_, e, fun hwf => ⟨hwf, hl, hj', hidx⟩⟩

/-- `ENCODE` has written all sixteen bytes of `DG`. -/
theorem execEncode_inv (hl : s.l = padLen s.n) (hj : s.j + 1 = s.l / 64) (hidx : s.idx = 63) :
    ∃ t, execEncode s = .next t ∧ (t.memWf = true → t.Inv) := by
  have h := (execEncode_next (s := s)).mpr rfl
  have hdg (a : Nat) (ha : a < 16) := execEncode_readByte h (List.getElem?_eq_getElem ha)
  exact ⟨_, h, fun hwf => ⟨hwf, hl, hj, hidx, fun a _ ha => State.readable_iff.mpr ⟨_, hdg a ha⟩⟩⟩

/-- The host's move faults only as a READ in `DONE` of a digest that is not readable. -/
theorem State.hostMove_exists (hdg : s.ph = .done → s.AllReadable .dg 0 16) :
    ∃ t, s.hostMove = .next t := by
  rcases hp : s.pending with _ | ⟨m | _, rest⟩
  · exact ⟨s, State.hostMove_nil hp⟩
  · exact ⟨_, State.hostMove_start hp⟩
  · rw [State.hostMove_read hp]
    split
    case isTrue hdone =>
      obtain ⟨bs, hbs⟩ := State.readBytes_exists (s := s) (sp := .dg) (a := 0) (k := 16)
        fun i hi => hdg hdone (0 + i) (by omega) (by omega)
      exact ⟨_, andThen_next.mpr ⟨bs, hbs, rfl⟩⟩
    case isFalse => exact ⟨s, rfl⟩

/-- START has written all of `MSG`; waiting and READ leave all the invariant speaks of. -/
theorem State.hostMove_inv (hinv : s.Inv) (hdg : s.ph = .done → s.AllReadable .dg 0 16) :
    ∃ t, s.hostMove = .next t ∧ (t.memWf = true → t.Inv) := by
  obtain ⟨t, h⟩ := State.hostMove_exists hdg
  refine ⟨t, h, fun hwf => ?_⟩
  obtain rfl | ⟨m, rest, -, -, rfl⟩ | ⟨rest, bs, -, -, -, rfl⟩ := State.hostMove_next h
  · exact hinv
  · exact ⟨hwf, State.allReadable_of_ofBytes (sp := .msg) (bs := m) rfl rfl⟩
  · exact hinv

end Phases

/-- Settles O49: phase by phase, what the invariant says is there is what the operation reads. -/
theorem stepKeepsInvariantAndNeverStops : Obligations.StepKeepsInvariantAndNeverStops := by
  intro s hinv
  have ⟨hwf, hclause⟩ := hinv
  suffices goesOn : ∃ t, step s = .next t ∧ (t.memWf = true → t.Inv) by
    obtain ⟨t, h, hkeep⟩ := goesOn
    exact ⟨t, h, hkeep (stepKeepsMemoryCanonical s t hwf h)⟩
  cases hph : s.ph <;> simp only [step_by_phase, hph] at hclause ⊢
  case idle => exact State.hostMove_inv hinv fun hdone => by simp [hph] at hdone
  case sInit => exact execInit_inv hclause
  case sPad => exact execPad_inv hclause
  case sDecode =>
    obtain ⟨hl, hj, hpb⟩ := hclause
    exact execDecode_inv hl hj hpb
  case sSnap =>
    obtain ⟨hl, hj, hpb⟩ := hclause
    exact execSnap_inv hl hj hpb
  case sRound =>
    obtain ⟨hl, hj, hpb⟩ := hclause
    exact ⟨_, rfl, roundOp_inv hph hl hj hpb⟩
  case sFold =>
    obtain ⟨hl, hj, hpb, hidx⟩ := hclause
    exact execFold_inv hl hj hpb hidx
  case sEncode =>
    obtain ⟨hl, hj, hidx⟩ := hclause
    exact execEncode_inv hl hj hidx
  case done =>
    obtain ⟨-, -, -, hdg⟩ := hclause
    exact State.hostMove_inv hinv fun _ => hdg

end Sys2Proof.Machine
end

section
/-! ## Proofs: codes, fields and the decoder (30_encoding.md) -/

namespace Sys2Proof.Machine

/-! ### The fields of a code as arithmetic (R81, R82) -/

theorem toNat_opRr (c : OpCode) : (opRr c).toNat = c.toNat / 16 % 4 := by
  simp [opRr, BitVec.extractLsb'_toNat, Nat.shiftRight_eq_div_pow]

theorem toNat_opP (c : OpCode) : (opP c).toNat = c.toNat % 16 := by
  simp [opP, BitVec.extractLsb'_toNat]

theorem toNat_opSub (c : OpCode) : (opSub c).toNat = c.toNat % 64 := by
  simp [opSub, BitVec.extractLsb'_toNat]

theorem opClass_eq_true {c : OpCode} : opClass c = true ↔ 64 ≤ c.toNat := by
  have hbit : opClass c = decide (c.toNat / 64 % 2 = 1) := Nat.testBit_eq_decide_div_mod_eq
  have hc : c.toNat < 128 := c.isLt
  rw [hbit, decide_eq_true_eq]
  omega

theorem opClass_eq_false {c : OpCode} : opClass c = false ↔ c.toNat < 64 := by
  rw [← Bool.not_eq_true, opClass_eq_true, Nat.not_le]

theorem toNat_roundOf (c : BitVec 6) : (roundOf c).toNat = c.toNat / 16 := by
  have hc : c.toNat < 64 := c.isLt
  simp only [roundOf, BitVec.extractLsb'_toNat, Nat.shiftRight_eq_div_pow]
  omega

theorem toNat_posOf (c : BitVec 6) : (posOf c).toNat = c.toNat % 16 := by
  simp [posOf, BitVec.extractLsb'_toNat]

theorem toNat_quarterOf (c : BitVec 6) : (quarterOf c).toNat = c.toNat % 4 := by
  simp [quarterOf, BitVec.extractLsb'_toNat]

/-- Settles O5: each field is a quotient or a remainder of the 6-bit number `i − 1`. -/
theorem codeFieldsAreIndexArithmetic : Obligations.CodeFieldsAreIndexArithmetic := by
  intro c i hi
  rw [toNat_roundOf, toNat_posOf, toNat_quarterOf]
  omega

/-! ### The codes of the operations (R81, R84) -/

/-- An append: the part above counts in units of `2^k`. -/
theorem toNat_append_eq_add {m k : Nat} (x : BitVec m) (y : BitVec k) :
    (x ++ y).toNat = 2 ^ k * x.toNat + y.toNat := by
  rw [BitVec.toNat_append, ← Nat.shiftLeft_add_eq_or_of_lt y.isLt, Nat.shiftLeft_eq, Nat.mul_comm]

theorem toNat_assemble_formatS (rr : BitVec 2) (p : BitVec 4) :
    (CodeFields.formatS rr p).assemble.toNat = 16 * rr.toNat + p.toNat := by
  rw [CodeFields.assemble, toNat_append_eq_add, toNat_append_eq_add]
  simp

theorem toNat_assemble_formatC (sub : BitVec 6) :
    (CodeFields.formatC sub).assemble.toNat = 64 + sub.toNat := by
  rw [CodeFields.assemble, toNat_append_eq_add]
  simp

/-- The fields of a round operation are its round and its position (R84). -/
theorem fields_roundInstr (rr : BitVec 2) (p : BitVec 4) : (roundInstr rr p).fields = .formatS rr p := by
  obtain ⟨rr⟩ := rr
  obtain ⟨p⟩ := p
  fin_cases rr <;> fin_cases p <;> rfl

/-- `code(ROUNDr p) = 16·(r − 1) + p` (R92). -/
theorem toNat_code_roundInstr (rr : BitVec 2) (p : BitVec 4) :
    (roundInstr rr p).code.toNat = 16 * rr.toNat + p.toNat := by
  rw [Instr.code, fields_roundInstr, toNat_assemble_formatS]

/-- The look-up of the sequencing operations and their fields are inverse to each other (R84). -/
theorem sequencingInstr_eq_some {sub : BitVec 6} {i : Instr} :
    sequencingInstr sub = some i ↔ i.fields = .formatC sub := by
  constructor
  · intro h
    unfold sequencingInstr at h
    split at h <;> cases h
    all_goals exact congrArg CodeFields.formatC (BitVec.eq_of_toNat_eq (Eq.symm ‹_›))
  · intro h
    cases i <;> cases h <;> rfl

/-- `sub = 6..63` are reserved (R86). -/
theorem exists_sequencingInstr_iff (sub : BitVec 6) :
    (∃ i, sequencingInstr sub = some i) ↔ sub.toNat ≤ 5 := by
  unfold sequencingInstr
  split
  case h_7 => simp_all only [imp_false, reduceCtorEq, exists_false, false_iff]; omega
  all_goals exact ⟨fun _ => by omega, fun _ => ⟨_, rfl⟩⟩

/-! ### The decoder -/

/-- A code below 0x40 names a round operation (R81). -/
theorem decodeCode_of_lt {c : OpCode} (h : c.toNat < 64) :
    decodeCode c = .ok (roundInstr (opRr c) (opP c)) := by
  simp [decodeCode, opClass_eq_false.mpr h]

/-- A code from 0x40 on is looked up among the sequencing operations (R81). -/
theorem decodeCode_eq_ok_of_le {c : OpCode} (h : 64 ≤ c.toNat) {i : Instr} :
    decodeCode c = .ok i ↔ sequencingInstr (opSub c) = some i := by
  simp only [decodeCode, opClass_eq_true.mpr h, if_true]
  cases sequencingInstr (opSub c) <;> simp

/-- The decoder refuses a code only as reserved (R86). -/
theorem decodeCode_error {c : OpCode} {e : DecodeError} (h : decodeCode c = .error e) : e = .reserved c := by
  rcases Nat.lt_or_ge c.toNat 64 with hlt | hge
  · simp [decodeCode_of_lt hlt] at h
  · simp only [decodeCode, opClass_eq_true.mpr hge, if_true] at h
    cases hs : sequencingInstr (opSub c) <;> simp only [hs] at h <;> cases h
    rfl

/-- Decoding a code and taking an operation's code are inverse to each other (R92). -/
theorem decodeCode_eq_ok {c : OpCode} {i : Instr} : decodeCode c = .ok i ↔ i.code = c := by
  constructor
  · intro h
    apply BitVec.eq_of_toNat_eq
    rcases Nat.lt_or_ge c.toNat 64 with hlt | hge
    · rw [decodeCode_of_lt hlt] at h
      cases h
      rw [toNat_code_roundInstr, toNat_opRr, toNat_opP]
      omega
    · have hf := sequencingInstr_eq_some.mp ((decodeCode_eq_ok_of_le hge).mp h)
      have hc : c.toNat < 128 := c.isLt
      rw [Instr.code, hf, toNat_assemble_formatC, toNat_opSub]
      omega
  · rintro rfl
    cases hf : i.fields with
    | formatS rr p =>
      have hcode : i.code.toNat = 16 * rr.toNat + p.toNat := by rw [Instr.code, hf, toNat_assemble_formatS]
      have hrr : opRr i.code = rr := BitVec.eq_of_toNat_eq (by rw [toNat_opRr]; omega)
      have hp : opP i.code = p := BitVec.eq_of_toNat_eq (by rw [toNat_opP]; omega)
      rw [decodeCode_of_lt (by omega), hrr, hp, ← Instr.eq_roundInstr_of_fields hf]
    | formatC sub =>
      have hcode : i.code.toNat = 64 + sub.toNat := by rw [Instr.code, hf, toNat_assemble_formatC]
      have hsub : opSub i.code = sub := BitVec.eq_of_toNat_eq (by rw [toNat_opSub]; omega)
      rw [decodeCode_eq_ok_of_le (by omega), hsub, sequencingInstr_eq_some, hf]

/-- The codes that name an operation are 0x00..0x45 (R84, R86). -/
theorem exists_decodeCode_iff (c : OpCode) : (∃ i, decodeCode c = .ok i) ↔ c.toNat ≤ 0x45 := by
  have hc : c.toNat < 128 := c.isLt
  rcases Nat.lt_or_ge c.toNat 64 with hlt | hge
  · exact ⟨fun _ => by omega, fun _ => ⟨_, decodeCode_of_lt hlt⟩⟩
  · simp only [decodeCode_eq_ok_of_le hge, exists_sequencingInstr_iff, toNat_opSub]
    omega

/-! ### Code bytes (log entry 7) -/

/-- A byte holds the code `c` exactly when it is `c` with a zero bit put above it. -/
theorem codeByte_iff {b : Byte} {c : OpCode} : b.getLsbD 7 = false ∧ b.setWidth 7 = c ↔ b = c.setWidth 8 := by
  have hbit : b.getLsbD 7 = decide (b.toNat / 128 % 2 = 1) := Nat.testBit_eq_decide_div_mod_eq
  have hb : b.toNat < 256 := b.isLt
  have hc : c.toNat < 128 := c.isLt
  simp only [hbit, decide_eq_false_iff_not, ← BitVec.toNat_inj, BitVec.toNat_setWidth]
  omega

/-- One code a byte: the head decides, the tail is left (R87). -/
theorem decode_cons_eq_ok {b : Byte} {bs rest : List Byte} {i : Instr} :
    decode (b :: bs) = .ok (i, rest) ↔ (b.getLsbD 7 = false ∧ decodeCode (b.setWidth 7) = .ok i) ∧ bs = rest := by
  simp only [decode]
  cases b.getLsbD 7 <;> cases decodeCode (b.setWidth 7) <;> simp

/-- Settles O2: the head byte is the operation's code byte, and the codes are in bijection with the operations. -/
theorem decodeInvertsEncode : Obligations.DecodeInvertsEncode := by
  intro bs i rest _
  cases bs with
  | nil => simp [decode, encode]
  | cons b bs =>
    calc decode (b :: bs) = .ok (i, rest)
      _ ↔ (b.getLsbD 7 = false ∧ b.setWidth 7 = i.code) ∧ bs = rest := by
        rw [decode_cons_eq_ok, decodeCode_eq_ok, eq_comm (a := i.code)]
      _ ↔ b = i.code.setWidth 8 ∧ bs = rest := by rw [codeByte_iff]
      _ ↔ b :: bs = encode i ++ rest := by simp [encode]

/-! ### Spellings (R89, R92) -/

theorem exists_roundSpelling (rr : BitVec 2) {p : Nat} (hp : p ≤ 15) :
    ∃ i, roundSpelling rr p = some i ∧ i.code.toNat = 16 * rr.toNat + p := by
  refine ⟨_, if_pos hp, ?_⟩
  rw [toNat_code_roundInstr, BitVec.toNat_ofNat]
  omega

theorem exists_opSpelling {k : Nat} (h1 : 1 ≤ k) (h64 : k ≤ 64) :
    ∃ i, opSpelling k = some i ∧ i.code.toNat = k - 1 := by
  refine ⟨_, if_pos ⟨h1, h64⟩, ?_⟩
  rw [toNat_code_roundInstr, BitVec.toNat_ofNat, BitVec.toNat_ofNat]
  omega

/-- Settles O1: the decoder inverts the codes, and a spelling's code is its index arithmetic. -/
theorem codesAndSpellingsAreBijections : Obligations.CodesAndSpellingsAreBijections :=
  ⟨fun _ _ => decodeCode_eq_ok, exists_decodeCode_iff, fun rr _ hp => exists_roundSpelling rr hp,
    fun _ h1 h64 => exists_opSpelling h1 h64, rfl, rfl, rfl, rfl, rfl, rfl⟩

/-! ### Reserved codes (R86) -/

theorem decodeCode_reserved {c : OpCode} (h : 0x46 ≤ c.toNat) : decodeCode c = .error (.reserved c) := by
  cases hd : decodeCode c with
  | ok i => exact absurd ((exists_decodeCode_iff c).mp ⟨i, hd⟩) (by omega)
  | error e => rw [decodeCode_error hd]

/-- The code of a round phase is below 0x40, and the six others are 0x40..0x45 (R81). -/
theorem opcode_le {ph : Phase} {idx : BitVec 6} {c : OpCode} (h : opcode ph idx = some c) : c.toNat ≤ 0x45 := by
  have hidx : idx.toNat < 64 := idx.isLt
  cases ph <;> cases h
  case sRound => rw [BitVec.toNat_setWidth]; omega
  all_goals decide

/-- Settles O3: no operation has the code, so the decoder refuses it, and `stepCode` with it. -/
theorem reservedCodesRefused : Obligations.ReservedCodesRefused := by
  refine ⟨fun c h => ⟨decodeCode_reserved h, fun s => ?_⟩, fun _ _ _ => opcode_le⟩
  simp [stepCode, decodeCode_reserved h]

/-! ### Words as the opcode table numbers their bits -/

/-- A word of eight bits is one byte. -/
theorem wordBytes_byte (w : Nat) : wordBytes (max 1 ((8 + 7) / 8)) (w % 2 ^ 8) = [BitVec.ofNat 8 w] := by
  simp [wordBytes, BitVec.ofNat, Fin.ofNat]

/-- A table word with a code in its low seven bits is read as the code is. -/
theorem decodeTableWord_toNat (c : OpCode) : decodeTableWord 8 c.toNat = (decodeCode c).toOption := by
  obtain ⟨hbit, hcode⟩ := codeByte_iff.mpr (BitVec.ofNat_toNat 8 c)
  simp only [decodeTableWord, wordBytes_byte, decode, hbit, hcode]
  cases decodeCode c <;> rfl

theorem decodeTableWord_code (i : Instr) : decodeTableWord 8 i.code.toNat = some i := by
  rw [decodeTableWord_toNat, decodeCode_eq_ok.mpr rfl]
  rfl

theorem decodeTableWord_reserved {c : OpCode} (h : 0x46 ≤ c.toNat) : decodeTableWord 8 c.toNat = none := by
  rw [decodeTableWord_toNat, decodeCode_reserved h]
  rfl

/-- Settles O4: the words of operations are their codes; the other three are reserved. -/
theorem tableWordsDecode : Obligations.TableWordsDecode :=
  ⟨decodeTableWord_code .round1_0, decodeTableWord_code .round1_15, decodeTableWord_code .round2_11,
    decodeTableWord_code .round3_15, decodeTableWord_code .round4_15, decodeTableWord_code .init,
    decodeTableWord_code .pad, decodeTableWord_code .decode, decodeTableWord_code .snap,
    decodeTableWord_code .fold, decodeTableWord_code .encode,
    decodeTableWord_reserved (c := 0x46) (by decide), decodeTableWord_reserved (c := 0x5A) (by decide),
    decodeTableWord_reserved (c := 0x7F) (by decide)⟩

end Sys2Proof.Machine
end

section
/-! ## Proofs: the expansions of the pseudo-operations (30_encoding.md R90) -/

namespace Sys2Proof.Machine

theorem roundsExpansion_codes : roundsExpansion.map (fun i => i.code.toNat) = List.range 64 := by
  have hop (c : Nat) (hc : c ∈ List.range 64) :
      (opSpelling (c + 1)).map (fun i => i.code.toNat) = some c := by
    obtain ⟨i, hi, hcode⟩ := exists_opSpelling (k := c + 1) (by omega) (by simpa using List.mem_range.mp hc)
    simp [hi, hcode]
  rw [roundsExpansion, List.map_filterMap, List.filterMap_congr hop, List.filterMap_some]

@[simp] theorem roundsExpansion_length : roundsExpansion.length = 64 := by
  simpa using congrArg List.length roundsExpansion_codes

@[simp] theorem compressExpansion_length : compressExpansion.length = 67 := by
  simp [compressExpansion]

theorem compressExpansion_codes :
    compressExpansion.map (fun i => i.code.toNat) = [0x42, 0x43] ++ List.range 64 ++ [0x44] := by
  rw [compressExpansion, List.map_append, List.map_append, roundsExpansion_codes]
  rfl

theorem hashExpansion_length (nch : Nat) : (hashExpansion nch).length = 3 + 67 * nch := by
  simp [hashExpansion]
  omega

theorem hashExpansion_codes (nch : Nat) :
    (hashExpansion nch).map (fun i => i.code.toNat) =
      [0x40, 0x41] ++ (List.replicate nch ([0x42, 0x43] ++ List.range 64 ++ [0x44])).flatten ++ [0x45] := by
  rw [hashExpansion, List.map_append, List.map_append, List.map_flatten, List.map_replicate,
    compressExpansion_codes]
  rfl

/-- Settles O6: the expansions of `HASH` are made of those of `COMPRESS`, and these of `ROUNDS`. -/
theorem scheduleCodes : Obligations.ScheduleCodes :=
  ⟨fun n => hashExpansion_codes (numChunks n), fun n => hashExpansion_length (numChunks n),
    hashExpansion_length, roundsExpansion_codes, rfl, compressExpansion_length⟩

end Sys2Proof.Machine
end

section
/-! ## Proofs: the operation a step runs, and the ways it can stop (30_encoding.md R86, R88) -/

namespace Sys2Proof.Machine

/-- Settles O36: `step` decodes the code the sequencer selects and runs what it names. -/
theorem stepRunsSelectedOperation : Obligations.StepRunsSelectedOperation := by
  intro s c i hc hi
  simp only [step, hc, stepCode, hi]

/-! ### Selecting a code -/

/-- Selecting a code writes `PH` and `I` at most. -/
theorem State.select_frame (s : State) (c : OpCode) :
    ∃ (ph : Phase) (idx : BitVec 6), s.select c = { s with ph := ph, idx := idx } := by
  unfold State.select
  split
  · split <;> exact ⟨_, _, rfl⟩
  · exact ⟨_, _, rfl⟩

/-- A code that names an operation is selected by the state made for it (R81). -/
theorem opcode_select (s : State) {c : OpCode} (h : c.toNat ≤ 0x45) :
    opcode (s.select c).ph (s.select c).idx = some c := by
  rcases Nat.lt_or_ge c.toNat 64 with hlt | hge
  · have hidx : (opSub c).setWidth 7 = c :=
      BitVec.eq_of_toNat_eq (by rw [BitVec.toNat_setWidth, toNat_opSub]; omega)
    simp [State.select, opClass_eq_false.mpr hlt, opcode, hidx]
  · have hc : c = 0x40 ∨ c = 0x41 ∨ c = 0x42 ∨ c = 0x43 ∨ c = 0x44 ∨ c = 0x45 := by
      simp only [← BitVec.toNat_inj, BitVec.reduceToNat]
      omega
    rcases hc with rfl | rfl | rfl | rfl | rfl | rfl <;> rfl

theorem State.withFetchWord_code (s : State) (i : Instr) :
    s.withFetchWord 8 i.code.toNat = s.select i.code := by
  simp only [State.withFetchWord, decodeTableWord_code]

/-- Settles O37: the state selects the operation's code, so the step runs the operation. -/
theorem fetchWordSelectsOperation : Obligations.FetchWordSelectsOperation := by
  intro s i
  rw [State.withFetchWord_code]
  have hdecode : decodeCode i.code = .ok i := decodeCode_eq_ok.mpr rfl
  have hle : i.code.toNat ≤ 0x45 := (exists_decodeCode_iff _).mp ⟨i, hdecode⟩
  exact ⟨stepRunsSelectedOperation _ _ _ (opcode_select s hle) hdecode, s.select_frame i.code⟩

/-! ### Refusals and faults -/

/-- The host's move faults only as a READ in `DONE` (45_sequencer_and_host.md R182). -/
theorem State.hostMove_fault {s : State} {e : Fault} (h : s.hostMove = .fault e) :
    s.ph = .done ∧ ∃ rest, s.pending = .read :: rest := by
  rcases hp : s.pending with _ | ⟨m | _, rest⟩
  · rw [State.hostMove_nil hp] at h; cases h
  · rw [State.hostMove_start hp] at h; cases h
  · rw [State.hostMove_read hp] at h
    split at h
    case isTrue hdone => exact ⟨hdone, rest, rfl⟩
    case isFalse => cases h

/-- `FOLD` always goes on (43_state_accumulator.md R163). -/
theorem execFold_exists (s : State) : ∃ t, execFold s = .next t := by
  rcases execFold_cases s with ⟨-, e⟩ | ⟨-, e⟩ <;> exact ⟨_, e⟩

/-- Outside the two phases that read memory, the core's operation always goes on (20_memory.md R55). -/
theorem step_goesOn {s : State} (hbusy : s.ph.busy = true) (hpad : s.ph ≠ .sPad) (hdecode : s.ph ≠ .sDecode) :
    ∃ t, step s = .next t := by
  rw [step_by_phase]
  cases hph : s.ph
  case idle | done => simp [hph, Phase.busy, Phase.status] at hbusy
  case sInit => exact ⟨_, execInit_next.mpr rfl⟩
  case sPad => exact absurd hph hpad
  case sDecode => exact absurd hph hdecode
  case sSnap => exact ⟨_, execSnap_next.mpr rfl⟩
  case sRound => exact ⟨_, rfl⟩
  case sFold => exact execFold_exists s
  case sEncode => exact ⟨_, execEncode_next.mpr rfl⟩

/-- Settles O50: phase by phase, only a read of memory can stop, and it stops with a fault. -/
theorem stopsAreMemoryReads : Obligations.StopsAreMemoryReads := by
  refine ⟨fun s r => ?_, fun s e h => ?_⟩
  · cases hph : s.ph
    case idle | done =>
      rw [step_of_not_busy (by rw [hph]; rfl)]
      exact State.hostMove_not_refused
    case sPad | sDecode =>
      simp only [step_by_phase, hph]
      exact andThen_not_refused
    all_goals
      obtain ⟨t, ht⟩ := step_goesOn (s := s) (by rw [hph]; rfl) (by simp [hph]) (by simp [hph])
      simp [ht]
  · by_cases hbusy : s.ph.busy = true
    · by_contra hne
      simp only [not_or] at hne
      obtain ⟨hpad, hdecode, -⟩ := hne
      obtain ⟨t, ht⟩ := step_goesOn hbusy hpad hdecode
      cases ht.symm.trans h
    · rw [step_of_not_busy (eq_false_of_ne_true hbusy)] at h
      exact .inr (.inr (State.hostMove_fault h))

end Sys2Proof.Machine
end

section
/-! ## Proofs: the Padder (40_padder.md) -/

namespace Sys2Proof.Machine

/-! ### The padded length (R101, R105) -/

theorem padLen_mod (n : Nat) : padLen n % 64 = 0 := by
  unfold padLen; omega

/-- No smaller multiple of 64 has room for the marker and the length field (R101). -/
theorem padLen_le_of_mod {n l : Nat} (hl : l % 64 = 0) (hn : n + 9 ≤ l) : padLen n ≤ l := by
  unfold padLen; omega

/-- Up to 55 bytes in the last chunk, the marker and the length field fit in it (R101). -/
theorem padLen_of_le {n : Nat} (h : n % 64 ≤ 55) : padLen n = n + (64 - n % 64) := by
  unfold padLen; omega

/-- From 56 bytes on, they take one more chunk (R101). -/
theorem padLen_of_ge {n : Nat} (h : 56 ≤ n % 64) : padLen n = n + (128 - n % 64) := by
  unfold padLen; omega

theorem padLen_le (n : Nat) : padLen n ≤ n + 72 := by
  rcases Nat.lt_or_ge 55 (n % 64) with h | h
  · rw [padLen_of_ge h]; omega
  · rw [padLen_of_le h]; omega

/-- Settles O28: the closed form is a multiple of 64, large enough, and no such multiple is smaller. -/
theorem paddedLengthIsLeast : Obligations.PaddedLengthIsLeast := by
  intro n
  have hzeros : padLen n - n - 9 ≤ 63 := by have := padLen_le n; omega
  have hceil : padLen n = 64 * ((n + 9 + 63) / 64) := by unfold padLen; omega
  refine ⟨padLen_mod n, padLen_ge n, fun l hl hn => padLen_le_of_mod hl hn, hceil, rfl,
    padLen_of_le, padLen_of_ge, (padLen_div n).symm, rfl, fun h => ?_, fun h => ?_, hzeros⟩
  · rw [← padLen_div, padLen_of_le h]; omega
  · rw [← padLen_div, padLen_of_ge h]; omega

/-! ### What `PAD` leaves in `PB` (R100, R102) -/

section Buffer

variable {s t : State}

/-- The `L` bytes of `PB` read as the padding of the message that `PAD` read. -/
theorem execPad_readBytes (h : execPad s = .next t) :
    ∃ m, s.readBytes .msg 0 s.n = .ok m ∧ t.readBytes .pb 0 t.l = .ok (padBytes m) := by
  obtain ⟨m, hm, rfl⟩ := execPad_next.mp h
  obtain ⟨hlen, -⟩ := State.readBytes_ok.mp hm
  have hpadded : (padBytes m).length = padLen s.n := by rw [padBytes_length, hlen]
  refine ⟨m, hm, State.readBytes_ok.mpr ⟨hpadded, fun i hi => ?_⟩⟩
  apply State.readByte_of_ofBytes (bs := padBytes m)
  · exact hpadded.symm
  · rfl
  · rw [Nat.zero_add, List.getElem?_eq_getElem hi]

/-- A byte of the padded message is what its address reads as. -/
theorem execPad_readByte (h : execPad s = .next t) :
    ∃ m, s.readBytes .msg 0 s.n = .ok m ∧ m.length = s.n ∧
      ∀ {a : Nat} {b : Byte}, (padBytes m)[a]? = some b → t.readByte .pb a = .ok b := by
  obtain ⟨m, hm, hbuf⟩ := execPad_readBytes h
  refine ⟨m, hm, (State.readBytes_ok.mp hm).1, fun {a b} hb => ?_⟩
  obtain ⟨ha, rfl⟩ := List.getElem?_eq_some_iff.mp hb
  simpa using (State.readBytes_ok.mp hbuf).2 a ha

/-- The registers `PAD` writes. -/
theorem execPad_registers (h : execPad s = .next t) : t.l = padLen s.n ∧ t.j = 0 ∧ t.ph = .sDecode := by
  obtain ⟨m, -, rfl⟩ := execPad_next.mp h
  exact ⟨rfl, rfl, rfl⟩

theorem execPad_l (h : execPad s = .next t) : t.l = padLen s.n :=
  (execPad_registers h).1

/-- The message's bytes at `0 .. n−1`. -/
theorem execPad_message (h : execPad s = .next t) {a : Nat} (ha : a < s.n) :
    t.readByte .pb a = s.readByte .msg a := by
  obtain ⟨m, hm, hlen, hread⟩ := execPad_readByte h
  have ham : a < m.length := hlen ▸ ha
  have hmsg : s.readByte .msg a = .ok m[a] := by simpa using (State.readBytes_ok.mp hm).2 a ham
  rw [hmsg, hread (by rw [padBytes_message m a ham, List.getElem?_eq_getElem ham])]

/-- The byte 0x80 at `n`. -/
theorem execPad_marker (h : execPad s = .next t) : t.readByte .pb s.n = .ok 0x80 := by
  obtain ⟨m, -, hlen, hread⟩ := execPad_readByte h
  exact hread (hlen ▸ padBytes_marker m)

/-- Zeros at `n+1 .. L−9`. -/
theorem execPad_zero (h : execPad s = .next t) {a : Nat} (hlo : s.n < a) (hhi : a + 9 ≤ t.l) :
    t.readByte .pb a = .ok 0 := by
  obtain ⟨m, -, hlen, hread⟩ := execPad_readByte h
  rw [execPad_l h, ← hlen] at hhi
  exact hread (padBytes_zero m a (hlen ▸ hlo) hhi)

/-- Byte `k` of the length field as a number (R103). -/
theorem byteOf_lengthField (n k : Nat) :
    byteOf k (lengthField n) = BitVec.ofNat 8 (8 * n % 2 ^ 64 / 2 ^ (8 * k)) := by
  apply BitVec.eq_of_toNat_eq
  rw [toNat_byteOf, lengthField, BitVec.toNat_ofNat, BitVec.toNat_ofNat]

/-- The length field at `L−8 .. L−1`. -/
theorem execPad_lengthByte (h : execPad s = .next t) {k : Nat} (hk : k < 8) :
    t.readByte .pb (t.l - 8 + k) = .ok (BitVec.ofNat 8 (8 * s.n % 2 ^ 64 / 2 ^ (8 * k))) := by
  rw [execPad_l h, execPad_lengthField h hk, byteOf_lengthField]

/-- `PB` lists the addresses below `L` and no others (log entry 4). -/
theorem execPad_extent (h : execPad s = .next t) (a : Nat) : (t.pb.get a).isSome = true ↔ a < t.l := by
  obtain ⟨m, hm, rfl⟩ := execPad_next.mp h
  obtain ⟨hlen, -⟩ := State.readBytes_ok.mp hm
  simp [Memory.get_ofBytes, hlen]

end Buffer

/-- The round operations' codes lie below 0x40 (30_encoding.md R81). -/
theorem opcode_sRound_lt {idx : BitVec 6} {c : OpCode} (h : opcode .sRound idx = some c) : c.toNat < 64 := by
  cases h
  rw [BitVec.toNat_setWidth]
  omega

/-- The sequencer selects `PAD` in `S_PAD` only (30_encoding.md R81). -/
theorem opcode_eq_pad (ph : Phase) (idx : BitVec 6) : opcode ph idx = some 0x41 ↔ ph = .sPad := by
  cases ph
  case sRound => exact ⟨fun h => absurd (opcode_sRound_lt h) (by decide), nofun⟩
  all_goals simp [opcode]

/-- Settles O25: a readable message lets `PAD` go on, and `PB` is read range by range. -/
theorem padExecutes : Obligations.PadExecutes := by
  refine ⟨rfl, opcode_eq_pad, fun s hmsg => ?_, fun s hn habc => ?_⟩
  · obtain ⟨t, h, -⟩ := execPad_inv hmsg
    obtain ⟨hl, hj, hph⟩ := execPad_registers h
    exact ⟨t, h, hl, hj, hph, fun a => execPad_message h, execPad_marker h, fun a => execPad_zero h,
      fun k => execPad_lengthByte h⟩
  · have h := execPad_next.mpr ⟨_, hn ▸ habc, rfl⟩
    obtain ⟨m, hm, hbuf⟩ := execPad_readBytes h
    rw [hn, habc] at hm
    cases hm
    have hl : padLen s.n = 64 := by rw [hn]; rfl
    refine ⟨_, h, hl, ?_⟩
    rw [execPad_l h, hl] at hbuf
    exact hbuf

/-- Settles O26: below `L` an address lies in one of the four ranges; no other operation writes `PB`. -/
theorem paddedBufferHolds : Obligations.PaddedBufferHolds := by
  refine ⟨fun s t (h : execPad s = .next t) => ?_, fun i s t hpad h => ?_⟩
  · have hl := execPad_l h
    refine ⟨hl ▸ padLen_mod s.n, hl ▸ padLen_ge s.n, fun l hmod hn => hl ▸ padLen_le_of_mod hmod hn,
      fun a ha => ?_⟩
    split_ifs with hmsg hmarker hzero
    · exact execPad_message h hmsg
    · exact hmarker ▸ execPad_marker h
    · exact execPad_zero h (by omega) hzero
    · have haddr : t.l - 8 + (a - (t.l - 8)) = a := by omega
      have hbyte := execPad_lengthByte h (k := a - (t.l - 8)) (by omega)
      rwa [haddr] at hbyte
  · by_cases hencode : i = .encode
    · subst hencode
      obtain rfl := execEncode_next.mp h
      exact ⟨rfl, rfl⟩
    · obtain ⟨-, hl, -, hpb, -⟩ := exec_frame_spaces hpad hencode h
      exact ⟨hpb, hl⟩

/-- Settles O27: `PAD` writes `PB`, `L`, `J` and `PH`, so `MSG`, `DG` and their sizes stay. -/
theorem padFrame : Obligations.PadFrame := by
  intro s t h
  have hextent := execPad_extent h
  obtain ⟨m, -, rfl⟩ := execPad_next.mp h
  exact ⟨rfl, rfl, rfl, rfl, rfl, rfl, rfl, rfl, State.readByte_congr rfl rfl, State.readByte_congr rfl rfl,
    hextent⟩

/-! ### The padding is injective (R105) -/

/-- A space that holds exactly some bytes determines them. -/
theorem Memory.ofBytes_injective (a : Nat) : Function.Injective (Memory.ofBytes a) := by
  intro bs bs' h
  apply List.ext_getElem?
  intro i
  simpa [Memory.get_ofBytes] using congrArg (fun m => Memory.get m (a + i)) h

/-- The bytes of a value determine it: bit `i` is bit `i mod 8` of byte `i / 8`. -/
theorem eq_of_byteOf_eq {k : Nat} {v v' : BitVec (8 * k)} (h : ∀ j, j < k → byteOf j v = byteOf j v') :
    v = v' := by
  apply BitVec.eq_of_getLsbD_eq
  intro i hi
  have bit (u : BitVec (8 * k)) : u.getLsbD i = (byteOf (i / 8) u).getLsbD (i % 8) := by
    simp [byteOf, Nat.mod_lt, Nat.div_add_mod]
  rw [bit v, bit v', h (i / 8) (by omega)]

/-- The eight bytes of the length field determine `n` modulo 2^61 (R103). -/
theorem lengthField_eq_of_lengthBytes {n n' : Nat} (h : lengthBytes n = lengthBytes n') :
    lengthField n = lengthField n' := by
  apply eq_of_byteOf_eq (k := 8)
  intro j hj
  simpa [lengthBytes, hj] using congrArg (·[j]?) h

/-- Lengths that are padded to the same `L` are less than 64 apart, so the length field tells them apart
although it is modulo 2^64. -/
theorem eq_of_padLen_of_lengthField {n n' : Nat} (hl : padLen n = padLen n')
    (hf : lengthField n = lengthField n') : n = n' := by
  have hmod : 8 * n % 2 ^ 64 = 8 * n' % 2 ^ 64 := by
    simpa only [lengthField, BitVec.toNat_ofNat] using congrArg BitVec.toNat hf
  have := padLen_ge n
  have := padLen_ge n'
  have := padLen_le n
  have := padLen_le n'
  omega

/-- The padded message determines its length `L`, the length field in its last eight bytes, hence `n`, and the
message is its first `n` bytes. -/
theorem padBytes_injective : Function.Injective padBytes := by
  intro m m' h
  have hl : padLen m.length = padLen m'.length := by simpa using congrArg List.length h
  have hfield : lengthBytes m.length = lengthBytes m'.length := by
    simp only [padBytes, ← List.cons_append, ← List.append_assoc] at h
    exact (List.append_inj' h (by simp)).2
  exact (List.append_inj h (eq_of_padLen_of_lengthField hl (lengthField_eq_of_lengthBytes hfield))).1

/-- Settles O29: the bounds of `L − n`; and equal buffers hold the same padded message, so the two runs read the
same message. -/
theorem paddingIsInjective : Obligations.PaddingIsInjective := by
  refine ⟨fun n => ⟨padLen_mod n, padLen_ge n, padLen_le n, fun h => ?_, fun h => ?_⟩, rfl, rfl,
    fun s s' t t' ht ht' hpb => ?_⟩
  · rw [padLen_of_le (by omega), h]
  · rw [padLen_of_ge (by omega), h]
  · obtain ⟨m, hm, rfl⟩ := execPad_next.mp ht
    obtain ⟨m', hm', rfl⟩ := execPad_next.mp ht'
    obtain rfl : m = m' := padBytes_injective (Memory.ofBytes_injective 0 hpb)
    obtain ⟨hlen, hread⟩ := State.readBytes_ok.mp hm
    obtain ⟨hlen', hread'⟩ := State.readBytes_ok.mp hm'
    refine ⟨hlen.symm.trans hlen', fun a ha => ?_⟩
    have ham : a < m.length := hlen ▸ ha
    simpa using (hread a ham).trans (hread' a ham).symm

end Sys2Proof.Machine
end

section
/-! ## Proofs: the ChunkDecoder (41_chunk_decoder.md) -/

namespace Sys2Proof.Machine

/-! ### A word and its four bytes (20_memory.md R50) -/

/-- A word read answers `v` exactly when the four addresses read as the bytes of `v`. -/
theorem State.readWord_ok_iff_byteOf {s : State} {sp : Space} {a : Nat} {v : Word} :
    s.readWord sp a = .ok v ↔ ∀ k, k < 4 → s.readByte sp (a + k) = .ok (byteOf k v) := by
  constructor
  · intro h
    obtain ⟨b0, b1, b2, b3, h0, h1, h2, h3, rfl⟩ := State.readWord_ok.mp h
    have hbytes := bytesOfWord_le32 b0 b1 b2 b3
    simp only [bytesOfWord, List.cons.injEq, and_true] at hbytes
    obtain ⟨e0, e1, e2, e3⟩ := hbytes
    intro k hk
    obtain rfl | rfl | rfl | rfl : k = 0 ∨ k = 1 ∨ k = 2 ∨ k = 3 := by omega
    · rw [e0]; exact h0
    · rw [e1]; exact h1
    · rw [e2]; exact h2
    · rw [e3]; exact h3
  · intro h
    exact State.readWord_ok.mpr ⟨_, _, _, _, h 0 (by omega), h 1 (by omega), h 2 (by omega),
      h 3 (by omega), (le32_byteOf v).symm⟩

/-- Where a read of four bytes answers, the word read at that address is their `le32` (R50). -/
theorem State.readWord_of_readBytes {s : State} {sp : Space} {a : Nat} {b0 b1 b2 b3 : Byte}
    (h : s.readBytes sp a 4 = .ok [b0, b1, b2, b3]) : s.readWord sp a = .ok (le32 b0 b1 b2 b3) := by
  obtain ⟨-, hread⟩ := State.readBytes_ok.mp h
  exact State.readWord_ok.mpr ⟨b0, b1, b2, b3, hread 0 (by simp), hread 1 (by simp),
    hread 2 (by simp), hread 3 (by simp), rfl⟩

/-! ### What `DECODE` needs and what it leaves (R120) -/

/-- The sequencer selects `DECODE` in `S_DECODE` only (30_encoding.md R81). -/
theorem opcode_eq_decode (ph : Phase) (idx : BitVec 6) : opcode ph idx = some 0x42 ↔ ph = .sDecode := by
  cases ph
  case sRound => exact ⟨fun h => absurd (opcode_sRound_lt h) (by decide), nofun⟩
  all_goals simp [opcode]

/-- `DECODE` goes on from every readable chunk. -/
theorem execDecode_exists {s : State} (h : s.AllReadable .pb (64 * s.j) (64 * s.j + 64)) :
    ∃ t, execDecode s = .next t := by
  obtain ⟨x, hx⟩ := State.readWords_exists (s := s) (sp := .pb) (a := 64 * s.j) (k := 16)
    fun i hi => h _ (by omega) (by omega)
  exact ⟨_, execDecode_next.mpr ⟨x, hx, rfl⟩⟩

/-- `DECODE` writes `X` and `PH` only. -/
theorem execDecode_frame {s t : State} (h : execDecode s = .next t) :
    { s with x := t.x, ph := .sSnap } = t := by
  obtain ⟨x, -, rfl⟩ := execDecode_next.mp h
  rfl

/-- `DECODE` gives the tuple `x` exactly when the chunk holds the bytes of its words (R122). -/
theorem execDecode_x_iff {s : State} {x : Vector Word 16} :
    (∃ t, execDecode s = .next t ∧ t.x = x) ↔
      ∀ (i : Fin 16) (k : Nat), k < 4 → s.readByte .pb (64 * s.j + 4 * i + k) = .ok (byteOf k x[i]) := by
  constructor
  · rintro ⟨t, h, rfl⟩ i
    exact State.readWord_ok_iff_byteOf.mp (execDecode_word h i)
  · intro h
    have hx : s.readWords .pb (64 * s.j) 16 = .ok x :=
      State.readWords_ok.mpr fun i hi => State.readWord_ok_iff_byteOf.mpr (h ⟨i, hi⟩)
    exact ⟨_, execDecode_next.mpr ⟨x, hx, rfl⟩, rfl⟩

/-- Settles O30: a readable chunk lets `DECODE` go on, and each word has the value of `le32` of its four bytes. -/
theorem decodeExecutes : Obligations.DecodeExecutes := by
  refine ⟨rfl, opcode_eq_decode, fun s hchunk => ?_, fun s t hj hbytes h => ?_⟩
  · obtain ⟨t, h⟩ := execDecode_exists hchunk
    refine ⟨t, h, execDecode_frame h, fun i => ?_⟩
    obtain ⟨b0, b1, b2, b3, h0, h1, h2, h3, hx⟩ := State.readWord_ok.mp (execDecode_word h i)
    exact ⟨b0, b1, b2, b3, h0, h1, h2, h3, hx ▸ toNat_le32 b0 b1 b2 b3⟩
  · have hword : s.readWord .pb (64 * s.j) = .ok t.x[0] := execDecode_word h 0
    rw [hj, State.readWord_of_readBytes hbytes] at hword
    exact (Except.ok.inj hword).symm

/-- Settles O31: a chunk word and the four bytes it was read from determine each other. -/
theorem decodeRoundTrip : Obligations.DecodeRoundTrip :=
  ⟨fun _ t h => execDecode_x_iff.mp ⟨t, h, rfl⟩, fun _ _ => execDecode_x_iff.mpr⟩

end Sys2Proof.Machine
end

section
/-! ## Proofs: the round functions and the tables (42_round_engine.md R131 to R134, R145, R147, R148) -/

namespace Sys2Proof.Machine

/-! ### The four functions, bit by bit -/

/-- R131: per bit a multiplexer selected by `x`. -/
theorem getLsbD_funF (x y z : Word) {t : Nat} (ht : t < 32) :
    (funF x y z).getLsbD t = if x.getLsbD t then y.getLsbD t else z.getLsbD t := by
  simp only [funF, BitVec.getLsbD_or, BitVec.getLsbD_and, BitVec.getLsbD_not, ht, decide_true, Bool.true_and]
  cases x.getLsbD t <;> simp

/-- R132: `G` is `F` with its arguments in the order `z, x, y`. -/
theorem funG_eq_funF (x y z : Word) : funG x y z = funF z x y := by
  rw [funG, funF, BitVec.and_comm z x, BitVec.and_comm (~~~z) y]

/-- R133: per bit the parity of the three bits. -/
theorem getLsbD_funH (x y z : Word) (t : Nat) :
    (funH x y z).getLsbD t = ((x.getLsbD t ^^ y.getLsbD t) ^^ z.getLsbD t) := by
  rw [funH, BitVec.getLsbD_xor, BitVec.getLsbD_xor]

/-- R134, bit by bit. -/
theorem getLsbD_funI (x y z : Word) {t : Nat} (ht : t < 32) :
    (funI x y z).getLsbD t = (y.getLsbD t ^^ (x.getLsbD t || !z.getLsbD t)) := by
  simp [funI, ht]

/-! ### The join of `F`'s two terms -/

/-- R131: `F`'s two terms have no bit in common, since `x` selects one of them at each position. -/
theorem funF_terms_disjoint (x y z : Word) : (x &&& y) &&& (~~~x &&& z) = 0#32 := by
  ext t
  cases hx : x[t] <;> simp [hx]

theorem funF_eq_xor (x y z : Word) : funF x y z = (x &&& y) ^^^ (~~~x &&& z) := by
  ext t
  cases hx : x[t] <;> simp [funF, hx]

theorem funF_eq_add (x y z : Word) : funF x y z = (x &&& y) + (~~~x &&& z) :=
  (BitVec.add_eq_or_of_and_eq_zero _ _ (funF_terms_disjoint x y z)).symm

/-- Settles O9: the formulas are the definitions, the bits are the lemmas above, `G`'s by way of `F`, and the rules'
examples are evaluated. -/
theorem roundFunctionsActBitwise : Obligations.RoundFunctionsActBitwise := by
  refine ⟨fun x y z => ⟨rfl, rfl, rfl, rfl, funG_eq_funF x y z, funF_eq_xor x y z, funF_eq_add x y z⟩,
    fun x y z t ht => ⟨getLsbD_funF x y z ht, ?_, getLsbD_funH x y z t, getLsbD_funI x y z ht⟩, ?_⟩
  · rw [funG_eq_funF]
    exact getLsbD_funF z x y ht
  · decide

/-! ### The role pattern (R145) -/

/-- The closed form of the pattern: the target moves down by one and the other roles follow it modulo 4. -/
theorem roles_closed_form (q : BitVec 2) :
    (roles q).target.val = (4 - q.toNat) % 4 ∧ (roles q).b.val = ((roles q).target.val + 1) % 4 ∧
    (roles q).c.val = ((roles q).target.val + 2) % 4 ∧ (roles q).d.val = ((roles q).target.val + 3) % 4 := by
  revert q
  decide

/-- Each of `W[0..3]` stands in exactly one role. -/
theorem roles_nodup (q : BitVec 2) : [(roles q).target, (roles q).b, (roles q).c, (roles q).d].Nodup := by
  revert q
  decide

/-- The register an operation writes is role b of the next operation. -/
theorem roles_b_succ (c : BitVec 6) :
    (roles (quarterOf (c + 1))).b = (roles (quarterOf c)).target := by
  revert c
  decide

/-- Settles O10: the rows by evaluation, the rest by the lemmas above; a round starts at `q = 0` since 4 divides 16. -/
theorem rolePatternRotates : Obligations.RolePatternRotates := by
  refine ⟨rfl, rfl, rfl, rfl, fun q => ?_, fun c hc => ?_, fun c _ => roles_b_succ c⟩
  · obtain ⟨ht, hb, hc, hd⟩ := roles_closed_form q
    exact ⟨ht, hb, hc, hd, roles_nodup q⟩
  · have hq : (quarterOf c).toNat = 0 := by rw [toNat_quarterOf]; omega
    exact BitVec.eq_of_toNat_eq hq

/-! ### Word selection and shifts (R147, R148) -/

/-- The rows of the word-selection table, in closed form. -/
theorem ksel_closed_form (p : BitVec 4) :
    (ksel 0 p).val = p.toNat ∧ (ksel 1 p).val = (5 * p.toNat + 1) % 16 ∧
    (ksel 2 p).val = (3 * p.toNat + 5) % 16 ∧ (ksel 3 p).val = 7 * p.toNat % 16 := by
  revert p
  decide

/-- No round reads a chunk word twice: 1, 5, 3 and 7 are odd, so each row is injective modulo 16. -/
theorem ksel_injective (rr : BitVec 2) : Function.Injective (ksel rr) := by
  intro p p' h
  have hval : (ksel rr p).val = (ksel rr p').val := congrArg Fin.val h
  obtain ⟨h0, h1, h2, h3⟩ := ksel_closed_form p
  obtain ⟨h0', h1', h2', h3'⟩ := ksel_closed_form p'
  apply BitVec.eq_of_toNat_eq
  obtain ⟨rfl, -⟩ | ⟨rfl, -⟩ | ⟨rfl, -⟩ | ⟨rfl, -⟩ := roundFun_cases rr <;> omega

/-- There are sixteen positions and sixteen chunk words, so a round reads every word. -/
theorem ksel_bijective (rr : BitVec 2) : Function.Bijective (ksel rr) :=
  (Fintype.bijective_iff_injective_and_card _).mpr
    ⟨ksel_injective rr, Fintype.card_congr (BitVec.equivFin (m := 4)).toEquiv⟩

/-- Settles O11: the closed forms, and each row's bijectivity. -/
theorem wordSelectionIsPermutation : Obligations.WordSelectionIsPermutation :=
  ⟨ksel_closed_form, fun rr k => (ksel_bijective rr).existsUnique k⟩

/-- Settles O12: the sixteen entries are the table's. (The model's table has the name `shiftTable`.) -/
theorem shiftTable_entries : Obligations.ShiftTable :=
  ⟨rfl, rfl, rfl, rfl, shiftAmount_range⟩

end Sys2Proof.Machine
end

section
/-! ## Proofs: the round constants are sines (42_round_engine.md R146)

`exp(i)` is approximated by a Gaussian rational `z / N!`, the first terms of its series, and `exp(i·n)` by its `n`-th
power; `sin n` is the imaginary part. What is left for each `n` is a comparison of integers. -/

namespace Sys2Proof.Machine

open Complex Finset

/-! ### The series of `exp(i)` in Gaussian integers -/

/-- `N!` times the sum of the terms `0..N` of the series of `exp(i)`. -/
def scaledExpI : ℕ → GaussianInt
  | 0 => 1
  | N + 1 => (N + 1 : ℕ) * scaledExpI N + ⟨0, 1⟩ ^ (N + 1)

theorem toComplex_scaledExpI (N : ℕ) :
    (scaledExpI N : ℂ) = N.factorial * ∑ m ∈ range (N + 1), I ^ m / m.factorial := by
  induction N with
  | zero => simp [scaledExpI]
  | succ N ih =>
    have hI : ((⟨0, 1⟩ : GaussianInt) : ℂ) = I := by simp [GaussianInt.toComplex_def]
    have hN : ((N + 1).factorial : ℂ) ≠ 0 := by exact_mod_cast (N + 1).factorial_ne_zero
    rw [sum_range_succ, mul_add, mul_div_cancel₀ _ hN, scaledExpI, map_add, map_mul, map_pow, map_natCast, hI, ih,
      Nat.factorial_succ]
    push_cast
    ring

/-- What the series leaves out after the term `1 / N!` is at most `2 / (N + 1)!`. -/
theorem norm_exp_I_sub_scaledExpI (N : ℕ) :
    ‖exp I - scaledExpI N / N.factorial‖ ≤ 2 / (N + 1).factorial := by
  have hN : (N.factorial : ℂ) ≠ 0 := by exact_mod_cast N.factorial_ne_zero
  have hbound := exp_bound (x := I) (n := N + 1) (by simp) N.succ_pos
  rw [toComplex_scaledExpI, mul_div_cancel_left₀ _ hN]
  refine hbound.trans ?_
  have hfac : (0 : ℝ) < (N + 1).factorial := by exact_mod_cast (N + 1).factorial_pos
  rw [norm_I, one_pow, one_mul, mul_inv, div_eq_mul_inv, mul_comm _ ((N + 1 : ℕ) : ℝ)⁻¹, ← mul_assoc]
  gcongr
  rw [← div_eq_mul_inv, div_le_iff₀ (by positivity)]
  push_cast
  linarith [(N.cast_nonneg : (0 : ℝ) ≤ N)]

/-! ### Powers -/

/-- The error of a power of an approximation to a number on the unit circle at most doubles with each factor. -/
theorem norm_pow_sub_pow_le {e z : ℂ} (he : ‖e‖ = 1) (hez : ‖e - z‖ ≤ 1) (n : ℕ) :
    ‖e ^ n - z ^ n‖ ≤ 2 ^ n * ‖e - z‖ := by
  have hz : ‖z‖ ≤ 2 := by linarith [norm_le_norm_add_norm_sub e z]
  induction n with
  | zero => simp
  | succ n ih =>
    calc ‖e ^ (n + 1) - z ^ (n + 1)‖
        = ‖(e ^ n - z ^ n) * e + z ^ n * (e - z)‖ := by ring_nf
      _ ≤ ‖e ^ n - z ^ n‖ * ‖e‖ + ‖z‖ ^ n * ‖e - z‖ := by
        rw [← norm_mul, ← norm_pow, ← norm_mul]
        exact norm_add_le _ _
      _ ≤ 2 ^ n * ‖e - z‖ * 1 + 2 ^ n * ‖e - z‖ := by rw [he]; gcongr
      _ = 2 ^ (n + 1) * ‖e - z‖ := by ring

/-- The imaginary part of the `n`-th power of the approximation, times `N!^n`. -/
def scaledSin (N n : ℕ) : ℤ :=
  (scaledExpI N ^ n).im

/-- `scaledSin N n / N!^n` approximates `sin n`. -/
theorem abs_sin_sub_scaledSin {N : ℕ} (hN : 1 ≤ N) (n : ℕ) :
    |Real.sin n - scaledSin N n / (N.factorial ^ n : ℕ)| ≤ 2 ^ n * (2 / (N + 1).factorial) := by
  have herr := norm_exp_I_sub_scaledExpI N
  have hone : (2 : ℝ) / (N + 1).factorial ≤ 1 := by
    have hfac : 2 ≤ (N + 1).factorial := le_trans (by omega) (N + 1).self_le_factorial
    exact (div_le_one (by positivity)).mpr (by exact_mod_cast hfac)
  have hnorm : ‖exp I‖ = 1 := by simpa using norm_exp_ofReal_mul_I 1
  have him : (exp I ^ n - (scaledExpI N / N.factorial : ℂ) ^ n).im
      = Real.sin n - scaledSin N n / (N.factorial ^ n : ℕ) := by
    rw [← exp_nat_mul, sub_im, ← ofReal_natCast n, exp_ofReal_mul_I_im, div_pow, ← map_pow, scaledSin,
      GaussianInt.intCast_im, ← Nat.cast_pow, div_natCast_im]
  calc |Real.sin n - scaledSin N n / (N.factorial ^ n : ℕ)|
      ≤ ‖exp I ^ n - (scaledExpI N / N.factorial : ℂ) ^ n‖ := him ▸ abs_im_le_norm _
    _ ≤ 2 ^ n * ‖exp I - scaledExpI N / N.factorial‖ := norm_pow_sub_pow_le hnorm (herr.trans hone) n
    _ ≤ 2 ^ n * (2 / (N + 1).factorial) := by gcongr

/-! ### The comparison of integers -/

/-- `2^32·|a / D|` lies between `v` and `v + 1`, at least `2^-8` from both. -/
def Separated (a : ℤ) (D v : ℕ) : Prop :=
  (2 ^ 8 * v + 1) * D ≤ 2 ^ 40 * a.natAbs ∧ 2 ^ 40 * a.natAbs + D < 2 ^ 8 * (v + 1) * D

/-- An approximation within `2^-40` determines the integer part of `2^32·|y|`, when it keeps that distance. -/
theorem floor_eq_of_approx {y : ℝ} {a : ℤ} {D v : ℕ} (hD : 0 < D) (hy : |y - a / D| ≤ 1 / 2 ^ 40)
    (hsep : Separated a D v) : ⌊(2 : ℝ) ^ 32 * |y|⌋₊ = v := by
  obtain ⟨hlo, hhi⟩ := hsep
  have hD' : (0 : ℝ) < D := by exact_mod_cast hD
  have habs : |(a : ℝ) / D| = a.natAbs / D := by rw [abs_div, Nat.abs_cast, Nat.cast_natAbs, Int.cast_abs]
  have hdist : |(|y| - a.natAbs / D)| ≤ 1 / 2 ^ 40 := habs ▸ (abs_abs_sub_abs_le _ _).trans hy
  have hlo' : (2 ^ 8 * v + 1) / 2 ^ 40 ≤ (a.natAbs : ℝ) / D := by
    rw [div_le_div_iff₀ (by positivity) hD', mul_comm (a.natAbs : ℝ)]
    exact_mod_cast hlo
  have hhi' : (a.natAbs : ℝ) / D < (2 ^ 8 * (v + 1) - 1) / 2 ^ 40 := by
    rw [div_lt_div_iff₀ hD' (by positivity), mul_comm (a.natAbs : ℝ), sub_mul, one_mul, lt_sub_iff_add_lt]
    exact_mod_cast hhi
  obtain ⟨hge, hle⟩ := abs_le.mp hdist
  rw [Nat.floor_eq_iff (by positivity)]
  constructor <;> linarith

/-- The closest of the 64 values is about `2^-6` from an integer, so an approximation by 32 terms keeps the distance.
The integers compared have thousands of bits, so the kernel alone evaluates them. -/
theorem scaledSin_separated (c : BitVec 6) :
    Separated (scaledSin 31 (c.toNat + 1)) (Nat.factorial 31 ^ (c.toNat + 1)) (constT c).toNat := by
  unfold Separated
  revert c
  decide +kernel

/-- R146's formula for the entry of operation index `c + 1`. -/
theorem toNat_constT_eq_floor (c : BitVec 6) :
    (constT c).toNat = ⌊(2 : ℝ) ^ 32 * |Real.sin ((c.toNat : ℝ) + 1)|⌋₊ := by
  have herr := abs_sin_sub_scaledSin (N := 31) (by decide) (c.toNat + 1)
  have hsmall : (2 : ℝ) ^ (c.toNat + 1) * (2 / Nat.factorial 32) ≤ 1 / 2 ^ 40 := by
    calc (2 : ℝ) ^ (c.toNat + 1) * (2 / Nat.factorial 32)
        ≤ 2 ^ 64 * (2 / Nat.factorial 32) := by
          gcongr
          · exact one_le_two
          · exact c.isLt
      _ ≤ 1 / 2 ^ 40 := by norm_num [Nat.factorial]
  have hfloor := floor_eq_of_approx (by positivity) (herr.trans hsmall) (scaledSin_separated c)
  rw [Nat.cast_succ] at hfloor
  exact hfloor.symm

/-- Settles O13: the formula for each index, and the literals by evaluating the table. -/
theorem constantsAreSines : Obligations.ConstantsAreSines :=
  ⟨toNat_constT_eq_floor, by decide⟩

end Sys2Proof.Machine
end

section
/-! ## Proofs: the round operations (42_round_engine.md R130, R135 to R139) -/

namespace Sys2Proof.Machine

/-! ### The fields of a code put together from its round and position (R82) -/

theorem roundOf_append (rr : BitVec 2) (p : BitVec 4) : roundOf (rr ++ p) = rr := by
  revert rr p
  decide

theorem quarterOf_append (rr : BitVec 2) (p : BitVec 4) : quarterOf (rr ++ p) = p.extractLsb' 0 2 := by
  revert rr p
  decide

/-! ### The rows of the tables (R136 to R139) -/

/-- The row of the operation with 6-bit code `c`, looked up as R144 says. -/
def rowOf (c : BitVec 6) : RoundRow where
  op := roundInstr (roundOf c) (posOf c)
  i := c.toNat + 1
  target := (roles (quarterOf c)).target
  b := (roles (quarterOf c)).b
  c := (roles (quarterOf c)).c
  d := (roles (quarterOf c)).d
  k := ksel (roundOf c) (posOf c)
  s := (shiftAmount (roundOf c) (quarterOf c)).val
  t := constT c

/-- The sixteen looked-up rows of a round, in order of position. -/
def rowsOf (rr : BitVec 2) : List RoundRow :=
  (List.range 16).map fun p => rowOf (rr ++ BitVec.ofNat 4 p)

/-! The printed tables are the looked-up ones. -/

theorem rowsOfRound1_eq : rowsOfRound1 = rowsOf 0 := rfl
theorem rowsOfRound2_eq : rowsOfRound2 = rowsOf 1 := rfl
theorem rowsOfRound3_eq : rowsOfRound3 = rowsOf 2 := rfl
theorem rowsOfRound4_eq : rowsOfRound4 = rowsOf 3 := rfl

/-- The common step has the effect of the looked-up row. -/
theorem roundOp_eq_effect (s : State) (c : BitVec 6) :
    s.roundOp c = (rowOf c).effect (roundFun (roundOf c)) s := by
  have hlast : c.toNat + 1 < 64 ↔ c.toNat < 63 := by omega
  have hidx : BitVec.ofNat 6 (c.toNat + 1) = c + 1 := by 
    rw [BitVec.ofNat_add, BitVec.ofNat_toNat, BitVec.setWidth_eq]
    rfl
  rw [State.roundOp_spec, RoundRow.effect]
  simp only [rowOf, hidx, hlast, roundWords, roundSum, BitVec.add_comm (rotl32 _ _)]

/-- The operation of a looked-up row has the row's code, and in every state the row's effect. -/
theorem rowOf_executes (c : BitVec 6) :
    (rowOf c).op.code.toNat + 1 = (rowOf c).i ∧
      ∀ s : State, exec (rowOf c).op s = .next ((rowOf c).effect (roundFun (roundOf c)) s) := by
  refine ⟨?_, fun s => ?_⟩
  · simp only [rowOf, toNat_code_roundInstr, toNat_roundOf, toNat_posOf]
    omega
  · rw [← roundOp_eq_effect, rowOf, exec_roundInstr, roundCode_split]

/-- So it is for each row of a round, with the round's function. -/
theorem rowsOf_execute {rows : List RoundRow} {rr : BitVec 2} (hrows : rows = rowsOf rr) :
    ∀ r ∈ rows, r.op.code.toNat + 1 = r.i ∧
      ∀ s : State, exec r.op s = .next (r.effect (roundFun rr) s) := by
  subst hrows
  intro r hr
  obtain ⟨p, -, rfl⟩ := List.mem_map.mp hr
  have h := rowOf_executes (rr ++ BitVec.ofNat 4 p)
  rwa [roundOf_append] at h

/-- `W` after an operation with `q = 0`, which writes `W[0]` from `W[1]`, `W[2]`, `W[3]`. -/
theorem effect_w_of_quarter_zero {r : RoundRow} {f : Word → Word → Word → Word} {s : State} {a b c d x : Word}
    (hr : (⟨r.target, r.b, r.c, r.d⟩ : Roles) = roles 0) (hw : s.w = #v[a, b, c, d]) (hx : s.x[r.k] = x) :
    (r.effect f s).w = #v[b + rotl32 (a + f b c d + x + r.t) r.s, b, c, d] := by
  obtain ⟨ht, hb, hc, hd⟩ := Roles.mk.inj hr
  simp only [RoundRow.effect, hw, hx, ht, hb, hc, hd]
  rfl

/-- Settles O14: the rows are the looked-up ones, and the example is round 1's first row evaluated. -/
theorem round1OperationsExecute : Obligations.Round1OperationsExecute := by
  have hrows := rowsOf_execute rowsOfRound1_eq
  refine ⟨hrows, fun s hw hx => ⟨_, (hrows _ List.mem_cons_self).2 s, ?_⟩⟩
  exact (effect_w_of_quarter_zero rfl hw hx).trans rfl

/-- Settles O15: as round 1, with `G`. -/
theorem round2OperationsExecute : Obligations.Round2OperationsExecute := by
  have hrows := rowsOf_execute rowsOfRound2_eq
  refine ⟨hrows, fun s hw hx => ⟨_, (hrows _ List.mem_cons_self).2 s, ?_⟩⟩
  exact (effect_w_of_quarter_zero rfl hw hx).trans rfl

/-- Settles O16: as round 1, with `H`. -/
theorem round3OperationsExecute : Obligations.Round3OperationsExecute := by
  have hrows := rowsOf_execute rowsOfRound3_eq
  refine ⟨hrows, fun s hw hx => ⟨_, (hrows _ List.mem_cons_self).2 s, ?_⟩⟩
  exact (effect_w_of_quarter_zero rfl hw hx).trans rfl

/-- Settles O17: as round 1, with `I`; the row with `i = 64` leaves `S_ROUND` by its effect. -/
theorem round4OperationsExecute : Obligations.Round4OperationsExecute := by
  have hrows := rowsOf_execute rowsOfRound4_eq
  refine ⟨hrows, fun s hw hx => ⟨_, (hrows _ List.mem_cons_self).2 s, ?_⟩⟩
  exact (effect_w_of_quarter_zero rfl hw hx).trans rfl

/-! ### The common step, by value and by frame (R130, R135) -/

/-- Roles b, c and d are other registers than the target. -/
theorem roles_ne_target (q : BitVec 2) :
    (roles q).b ≠ (roles q).target ∧ (roles q).c ≠ (roles q).target ∧ (roles q).d ≠ (roles q).target := by
  have h := roles_nodup q
  simp only [List.nodup_cons, List.mem_cons, not_or] at h
  obtain ⟨⟨hb, hc, hd, -⟩, -⟩ := h
  exact ⟨Ne.symm hb, Ne.symm hc, Ne.symm hd⟩

/-- What a round operation writes to its target. -/
theorem roundWords_target (c : BitVec 6) (w : Vector Word 4) (x : Vector Word 16) :
    (roundWords c w x)[(roles (quarterOf c)).target] =
      rotl32 (roundSum c w x) (shiftAmount (roundOf c) (quarterOf c)).val + w[(roles (quarterOf c)).b] := by
  simp [roundWords]

/-- A round operation leaves every word but its target. -/
theorem roundWords_of_ne {c : BitVec 6} {m : Fin 4} (hm : m ≠ (roles (quarterOf c)).target)
    (w : Vector Word 4) (x : Vector Word 16) : (roundWords c w x)[m] = w[m] := by
  have hval : (roles (quarterOf c)).target.val ≠ m.val := fun h => hm (Fin.ext h.symm)
  simp [roundWords, hval]

/-- R135's choice of the function by the round `r = rr + 1`. -/
theorem roundFun_eq_ite (rr : BitVec 2) :
    roundFun rr = if rr.toNat + 1 = 1 then funF else if rr.toNat + 1 = 2 then funG
      else if rr.toNat + 1 = 3 then funH else funI := by
  obtain ⟨rfl, h⟩ | ⟨rfl, h⟩ | ⟨rfl, h⟩ | ⟨rfl, h⟩ := roundFun_cases rr <;> rw [h] <;> rfl

/-- R135's `u`: the sum modulo 2^32. -/
theorem toNat_roundSum (c : BitVec 6) (w : Vector Word 4) (x : Vector Word 16) :
    (roundSum c w x).toNat =
      (w[(roles (quarterOf c)).target].toNat +
        (roundFun (roundOf c) w[(roles (quarterOf c)).b] w[(roles (quarterOf c)).c] w[(roles (quarterOf c)).d]).toNat +
        x[ksel (roundOf c) (posOf c)].toNat + (constT c).toNat) % 2 ^ 32 := by
  simp [roundSum, BitVec.toNat_add]

/-- Settles O18: `r`, `p`, `q` are the fields of the code, `u` the value of the sum and `v` that of its rotation. -/
theorem roundStepFormula : Obligations.RoundStepFormula := by
  rintro s i hph hi r p q f u v hr hp hq hf hu hv
  have hc : s.idx.toNat < 64 := s.idx.isLt
  have hr' : r = (roundOf s.idx).toNat + 1 := by rw [toNat_roundOf]; omega
  have hp' : p = (posOf s.idx).toNat := by rw [toNat_posOf]; omega
  obtain rfl : q = quarterOf s.idx := BitVec.eq_of_toNat_eq (by rw [toNat_quarterOf]; omega)
  simp only [hr', hp', Nat.add_sub_cancel, BitVec.ofNat_toNat, BitVec.setWidth_eq, ← roundFun_eq_ite] at hf hu hv
  have hu' : u = (roundSum s.idx s.w s.x).toNat := by rw [hu, hf, toNat_roundSum]
  have hv' : v = (rotl32 (roundSum s.idx s.w s.x) (shiftAmount (roundOf s.idx) (quarterOf s.idx)).val).toNat := by
    rw [hv, hu', toNat_rotl32 _ (Fin.isLt _)]
  refine ⟨s.roundOp s.idx, by rw [step_by_phase, hph], ?_, fun m hm => ?_, fun hlt => ?_, fun hlast => ?_, ?_⟩
  · rw [State.roundOp_w, roundWords_target, BitVec.toNat_add, hv']
  · rw [State.roundOp_w, roundWords_of_ne hm]
  · have hmore : s.idx.toNat < 63 := by omega
    have hsucc : (s.idx + 1).toNat = s.idx.toNat + 1 := by bv_omega
    simp only [State.roundOp_spec, hmore, if_true, hph, hsucc, hi, and_self]
  · have hmore : ¬s.idx.toNat < 63 := by omega
    simp [State.roundOp_spec, hmore]
  · rw [State.roundOp_spec]

/-- Settles O19: the frame of the common step, at each operation's code. -/
theorem roundOperationsFrame : Obligations.RoundOperationsFrame := by
  intro rr p s t h
  rw [exec_roundInstr] at h
  cases h
  have hread := State.readByte_of_same (State.roundOp_n s (rr ++ p)) (State.roundOp_l s _) (State.roundOp_msg s _)
    (State.roundOp_pb s _) (State.roundOp_dg s _)
  refine ⟨fun m hm => ?_, State.roundOp_h s _, State.roundOp_x s _, State.roundOp_j s _, State.roundOp_n s _,
    State.roundOp_l s _, State.roundOp_maxN s _, State.roundOp_pending s _, State.roundOp_delivered s _, hread⟩
  rw [← quarterOf_append rr] at hm
  rw [State.roundOp_w, roundWords_of_ne hm]

end Sys2Proof.Machine
end

section
/-! ## Proofs: the compression loses nothing (42_round_engine.md R149, R150) -/

namespace Sys2Proof.Machine

/-- A rotate loses no bit: bit `b` of the word stands at bit `(b + s) mod 32` of the rotated one. -/
theorem rotl32_injective {s : Nat} (hs : s < 32) : Function.Injective fun v => rotl32 v s := by
  intro v v' (h : rotl32 v s = rotl32 v' s)
  refine BitVec.eq_of_getLsbD_eq fun b hb => ?_
  rw [← getLsbD_rotl32 v hs hb, h, getLsbD_rotl32 v' hs hb]

/-- R150(b): roles b, c and d are still there, so `v`, `u` and then the old target can be computed back. -/
theorem roundWords_injective (c : BitVec 6) (x : Vector Word 16) :
    Function.Injective fun w => roundWords c w x := by
  intro w w' (h : roundWords c w x = roundWords c w' x)
  have hkept (m : Fin 4) (hm : m ≠ (roles (quarterOf c)).target) : w[m] = w'[m] := by
    rw [← roundWords_of_ne hm w x, h, roundWords_of_ne hm]
  obtain ⟨hb, hc, hd⟩ := roles_ne_target (quarterOf c)
  have htarget : w[(roles (quarterOf c)).target] = w'[(roles (quarterOf c)).target] := by
    have hwritten := roundWords_target c w x
    rw [h, roundWords_target c w' x, hkept _ hb, add_left_inj] at hwritten
    have hsum := rotl32_injective (Fin.isLt _) hwritten.symm
    rwa [roundSum, roundSum, hkept _ hb, hkept _ hc, hkept _ hd, add_left_inj, add_left_inj, add_left_inj] at hsum
  have hall (m : Fin 4) : w[m] = w'[m] := by
    rcases eq_or_ne m (roles (quarterOf c)).target with rfl | hm
    · exact htarget
    · exact hkept m hm
  exact Vector.ext fun m hm => hall ⟨m, hm⟩

/-- Settles O20: each round operation applies `roundWords` at its code to `W`. -/
theorem roundOperationsAreInjective : Obligations.RoundOperationsAreInjective := by
  intro rr p s s' t t' h h' hx hw
  rw [exec_roundInstr] at h h'
  cases h
  cases h'
  rw [State.roundOp_w, State.roundOp_w, ← hx] at hw
  exact roundWords_injective _ _ hw

/-- There are finitely many 4-word tuples. -/
theorem finite_words : Finite (Vector Word 4) :=
  Finite.of_injective (fun w (m : Fin 4) => w[m]) fun _ _ h => Vector.ext fun m hm => congrFun h ⟨m, hm⟩

theorem roundsUpTo_injective (x : Vector Word 16) (k : Nat) : Function.Injective fun h => roundsUpTo h x k := by
  induction k with
  | zero => exact Function.injective_id
  | succ k ih => exact (roundWords_injective _ x).comp ih

/-- Settles O21: the 64 operations are injective one after another, on a finite set. -/
theorem compressionIsBijective : Obligations.CompressionIsBijective := fun x =>
  have := finite_words
  Finite.injective_iff_bijective.mp (roundsUpTo_injective x 64)

end Sys2Proof.Machine
end

section
/-! ## Proofs: one turn of the chunk loop (42_round_engine.md R149, 43_state_accumulator.md R162, R165) -/

namespace Sys2Proof.Machine

/-- A run goes on by one step. -/
theorem run_append_step {k : Nat} {s t : State} (h : run k s = .next t) : run (k + 1) s = step t := by
  rw [run_add h, run]
  cases step t <;> rfl

theorem step_sRound {s : State} (hph : s.ph = .sRound) : step s = .next (s.roundOp s.idx) := by
  rw [step_by_phase, hph]

section Rounds

variable {s : State} (hph : s.ph = .sRound) (hidx : s.idx = 0)
include hph hidx

/-- The round operations before the last one: they apply `roundWords` at the codes `0, 1, …` to `W` (R130). -/
theorem run_rounds {k : Nat} (hk : k < 64) :
    run k s = .next { s with w := roundsUpTo s.w s.x k, idx := BitVec.ofNat 6 k } := by
  induction k with
  | zero => rw [run_zero, roundsUpTo, show BitVec.ofNat 6 0 = s.idx from hidx.symm]
  | succ k ih =>
    have hmore : (BitVec.ofNat 6 k).toNat < 63 := by rw [BitVec.toNat_ofNat]; omega
    have hsucc : BitVec.ofNat 6 k + 1 = BitVec.ofNat 6 (k + 1) := (BitVec.ofNat_add k 1).symm
    rw [run_append_step (ih (by omega)), step_sRound (by exact hph), State.roundOp_spec]
    simp only [hmore, if_true, hsucc, roundsUpTo]

/-- The 64 round operations leave `R(w, x)` in `W` and go to `S_FOLD` (R149). -/
theorem run_compress : run 64 s = .next { s with w := compress s.w s.x, idx := 63, ph := .sFold } := by
  rw [run_append_step (run_rounds hph hidx (k := 63) (by decide)), step_sRound (by exact hph), State.roundOp_spec]
  rfl

end Rounds

/-- `SNAP` and the 64 round operations: `W` is `R(h, x)` and `H` is kept (R162). -/
theorem run_snap_compress {s : State} (hph : s.ph = .sSnap) :
    run 65 s = .next { s with w := compress s.h s.x, idx := 63, ph := .sFold } := by
  have hsnap : step s = .next { s with w := s.h, idx := 0, ph := .sRound } := by
    rw [step_by_phase, hph]
    exact execSnap_next.mpr rfl
  rw [run_succ hsnap, run_compress rfl rfl]

/-- A turn of the chunk loop from a decoded chunk: `H` becomes `h + R(h, x)`, and the sequencer goes to the next chunk
while there is one (R163, R165). -/
theorem run_snap_compress_fold {s : State} (hph : s.ph = .sSnap) :
    ∃ t, run 66 s = .next t ∧ t.h = addWords s.h (compress s.h s.x) ∧ t.x = s.x ∧
      (s.j + 1 < s.l / 64 → t.ph = .sDecode ∧ t.j = s.j + 1) ∧ (s.j + 1 = s.l / 64 → t.ph = .sEncode) := by
  rw [run_append_step (run_snap_compress hph), step_by_phase]
  rcases execFold_cases { s with w := compress s.h s.x, idx := 63, ph := .sFold } with ⟨hmore, e⟩ | ⟨hlast, e⟩
  · exact ⟨_, e, rfl, rfl, fun _ => ⟨rfl, rfl⟩, fun hlast => absurd hmore (by simp [hlast])⟩
  · exact ⟨_, e, rfl, rfl, fun hmore => absurd hmore hlast, fun _ => rfl⟩

/-- Settles O52: `DECODE` goes on under the invariant and leaves `H`, `J` and `L`; the rest is the turn above. -/
theorem chunkTurnFoldsTheCompression : Obligations.ChunkTurnFoldsTheCompression := by
  refine ⟨fun s hph => ⟨_, run_snap_compress hph, rfl, rfl, rfl, rfl, rfl, rfl, rfl⟩, fun s hinv hph => ?_⟩
  obtain ⟨u, hu, -⟩ := stepKeepsInvariantAndNeverStops s hinv
  have hdecode : execDecode s = .next u := by rwa [step_by_phase, hph] at hu
  obtain ⟨x, -, rfl⟩ := execDecode_next.mp hdecode
  obtain ⟨t, ht, hh, hx, hmore, hlast⟩ := run_snap_compress_fold (s := { s with x := x, ph := .sSnap }) rfl
  exact ⟨_, t, hu, (run_succ hu).trans ht, fun m => by rw [hh]; simp, hx, hmore, hlast⟩

end Sys2Proof.Machine
end

section
/-! ## Proofs: the StateAccumulator (43_state_accumulator.md) -/

namespace Sys2Proof.Machine

/-! ### The phase that selects a sequencing operation (30_encoding.md R81) -/

/-- A code from 0x40 on leads back to the phase that selects it: no round operation has such a code. -/
theorem State.select_ph_of_opcode (s : State) {ph : Phase} {idx : BitVec 6} {c : OpCode}
    (h : opcode ph idx = some c) (hc : 64 ≤ c.toNat) : (s.select c).ph = ph := by
  cases ph
  case idle | done => cases h
  case sRound => exact absurd (opcode_sRound_lt h) (Nat.not_lt.mpr hc)
  all_goals cases h; rfl

/-- So a code from 0x40 on that a phase selects whatever `I` is, is selected in that phase only. -/
theorem opcode_eq_iff_phase {ph₀ : Phase} {c : OpCode} (h₀ : ∀ idx, opcode ph₀ idx = some c)
    (hc : 64 ≤ c.toNat) (ph : Phase) (idx : BitVec 6) : opcode ph idx = some c ↔ ph = ph₀ := by
  constructor
  · intro h
    rw [← State.select_ph_of_opcode State.reset h hc, State.select_ph_of_opcode State.reset (h₀ idx) hc]
  · rintro rfl
    exact h₀ idx

/-! ### `FOLD` (R163) -/

/-- `FOLD` leaves in `H` the component-wise sum. -/
theorem execFold_h {s t : State} (h : execFold s = .next t) : t.h = addWords s.h s.w := by
  rcases execFold_cases s with ⟨-, e⟩ | ⟨-, e⟩ <;> rw [e] at h <;> cases h <;> rfl

/-- `FOLD` writes `H`, `J` and `PH` only. -/
theorem execFold_frame {s t : State} (h : execFold s = .next t) :
    { s with h := t.h, j := t.j, ph := t.ph } = t := by
  rcases execFold_cases s with ⟨-, e⟩ | ⟨-, e⟩ <;> rw [e] at h <;> cases h <;> rfl

/-- While there is a next chunk, `FOLD` goes on with it. -/
theorem execFold_of_more {s t : State} (h : execFold s = .next t) (hmore : s.j + 1 < s.l / 64) :
    t.j = s.j + 1 ∧ t.ph = .sDecode := by
  rcases execFold_cases s with ⟨-, e⟩ | ⟨hlast, -⟩
  · rw [e] at h
    cases h
    exact ⟨rfl, rfl⟩
  · exact absurd hmore hlast

/-- After the last chunk `FOLD` goes to `S_ENCODE`. -/
theorem execFold_of_last {s t : State} (h : execFold s = .next t) (hlast : ¬s.j + 1 < s.l / 64) :
    t.j = s.j ∧ t.ph = .sEncode := by
  rcases execFold_cases s with ⟨hmore, -⟩ | ⟨-, e⟩
  · exact absurd hmore hlast
  · rw [e] at h
    cases h
    exact ⟨rfl, rfl⟩

/-- Settles O24: the sum by its value, the loop test and the frame; the example's sum is evaluated. -/
theorem foldExecutes : Obligations.FoldExecutes := by
  refine ⟨rfl, opcode_eq_iff_phase (fun _ => rfl) (by decide), fun s => ?_, fun s hh hw hj hl => ?_⟩ <;>
    obtain ⟨t, h⟩ := execFold_exists s
  · refine ⟨t, h, fun m => ?_, execFold_of_more h, execFold_of_last h, execFold_frame h⟩
    rw [execFold_h h, Fin.getElem_fin, addWords_getElem, BitVec.toNat_add]
    rfl
  · have hlast : ¬s.j + 1 < s.l / 64 := by rw [hj, hl]; decide
    obtain ⟨-, hph⟩ := execFold_of_last h hlast
    exact ⟨t, h, by rw [execFold_h h, hh, hw]; rfl, hph⟩

/-! ### `INIT` and `SNAP` (R160, R161) -/

/-- Settles O22: the state `INIT` always answers holds the constants; their bytes are evaluated. -/
theorem initExecutes : Obligations.InitExecutes :=
  ⟨rfl, opcode_eq_iff_phase (fun _ => rfl) (by decide), fun _ => execInit_next.mpr rfl, rfl⟩

/-- Settles O23: the state `SNAP` always answers. -/
theorem snapExecutes : Obligations.SnapExecutes :=
  ⟨rfl, opcode_eq_iff_phase (fun _ => rfl) (by decide),
    fun _ => ⟨_, execSnap_next.mpr rfl, fun _ => rfl, rfl, rfl, rfl⟩⟩

end Sys2Proof.Machine
end

section
/-! ## Proofs: the digest encoder (44_digest_encoder.md) -/

namespace Sys2Proof.Machine

/-! ### What `ENCODE` stores (R170, R171) -/

/-- R171: `DG[4m + k]` is byte `k` of `H[m]`. -/
theorem execEncode_byteOf {s t : State} (h : execEncode s = .next t) (m : Fin 4) {k : Nat} (hk : k < 4) :
    t.readByte .dg (4 * m + k) = .ok (byteOf k s.h[m]) :=
  execEncode_readByte h (digestBytes_getElem? s.h m ⟨k, hk⟩)

/-- Read as little-endian words, `DG` is `H` (R171). -/
theorem execEncode_readWord {s t : State} (h : execEncode s = .next t) (m : Fin 4) :
    t.readWord .dg (4 * m) = .ok s.h[m] :=
  State.readWord_ok_iff_byteOf.mpr fun _ hk => execEncode_byteOf h m hk

/-- Read as sixteen bytes, `DG` is the digest of `H` (R170). -/
theorem execEncode_readBytes {s t : State} (h : execEncode s = .next t) :
    t.readBytes .dg 0 16 = .ok (digestBytes s.h) := by
  refine State.readBytes_ok.mpr ⟨digestBytes_length s.h, fun i hi => ?_⟩
  rw [Nat.zero_add]
  exact execEncode_readByte h (List.getElem?_eq_getElem hi)

/-! ### What `ENCODE` leaves -/

/-- `ENCODE` stores to `DG[0..15]` only: the list of cells is as it was from address 16 on. -/
theorem execEncode_get_of_le {s t : State} (h : execEncode s = .next t) {a : Nat} (ha : 16 ≤ a) :
    t.dg.get a = s.dg.get a := by
  obtain rfl := execEncode_next.mp h
  have hout : ¬(0 ≤ a ∧ a < 0 + (digestBytes s.h).length) := by rw [digestBytes_length]; omega
  rw [Memory.get_setBytes, if_neg hout]

/-- `MSG` and `PB` read as before, and `DG` has no address from 16 on, before or after (R30). -/
theorem execEncode_readByte_of_not_stored {s t : State} (h : execEncode s = .next t) {sp : Space} {a : Nat}
    (ha : ¬(sp = .dg ∧ a < 16)) : t.readByte sp a = s.readByte sp a := by
  cases sp
  case dg =>
    have hout : 16 ≤ a := Nat.le_of_not_lt fun hlt => ha ⟨rfl, hlt⟩
    rw [State.readByte_outOfRange hout, State.readByte_outOfRange hout]
  all_goals
    obtain rfl := execEncode_next.mp h
    exact State.readByte_congr rfl rfl a

/-! ### Every sixteen bytes are a digest (R171) -/

theorem exists_digestBytes {bs : List Byte} (hlen : bs.length = 16) : ∃ h, digestBytes h = bs := by
  match bs, hlen with
  | [b0, b1, b2, b3, b4, b5, b6, b7, b8, b9, b10, b11, b12, b13, b14, b15], _ =>
    refine ⟨#v[le32 b0 b1 b2 b3, le32 b4 b5 b6 b7, le32 b8 b9 b10 b11, le32 b12 b13 b14 b15], ?_⟩
    simp [digestBytes, bytesOfWord_le32]

/-- Settles O34: the state `ENCODE` always answers, read by bytes and by words; the example's bytes are evaluated. -/
theorem encodeExecutes : Obligations.EncodeExecutes := by
  have hnext (s : State) := (execEncode_next (s := s)).mpr rfl
  refine ⟨rfl, opcode_eq_iff_phase (fun _ => rfl) (by decide), fun bs hlen => ?_, fun s hh => ?_, fun s => ?_⟩
  · obtain ⟨h, rfl⟩ := exists_digestBytes hlen
    exact ⟨h, fun s hs => ⟨_, hnext s, hs ▸ execEncode_readBytes (hnext s)⟩⟩
  · refine ⟨_, hnext s, ?_⟩
    rw [execEncode_readBytes (hnext s), hh]
    rfl
  · exact ⟨_, hnext s, rfl, rfl, fun m k hk => ⟨_, execEncode_byteOf (hnext s) m hk, toNat_byteOf k _⟩,
      execEncode_readWord (hnext s), fun _ _ => execEncode_readByte_of_not_stored (hnext s),
      fun _ => execEncode_get_of_le (hnext s)⟩

end Sys2Proof.Machine
end

section
/-! ## Proofs: the sequencer (45_sequencer_and_host.md R185)

A busy step moves the five control registers by a function of these five alone. The rows of R185's table and the
independence of the data are both read off that function. -/

namespace Sys2Proof.Machine

/-! ### The control registers -/

/-- The registers that decide which operation runs next: `PH`, `J`, `I`, `N`, `L` (R185, 10_state.md R24). -/
structure Control where
  ph : Phase
  j : Nat
  idx : BitVec 6
  n : Nat
  l : Nat

/-- The control registers of a state. -/
def State.control (s : State) : Control :=
  ⟨s.ph, s.j, s.idx, s.n, s.l⟩

/-- How a busy step moves the control registers (R185). -/
def Control.next (c : Control) : Control :=
  match c.ph with
  | .sInit => { c with ph := .sPad }
  | .sPad => { c with ph := .sDecode, j := 0, l := padLen c.n }
  | .sDecode => { c with ph := .sSnap }
  | .sSnap => { c with ph := .sRound, idx := 0 }
  | .sRound => if c.idx.toNat < 63 then { c with idx := c.idx + 1 } else { c with ph := .sFold }
  | .sFold => if c.j + 1 < c.l / 64 then { c with ph := .sDecode, j := c.j + 1 } else { c with ph := .sEncode }
  | .sEncode => { c with ph := .done }
  | .idle | .done => c

section BusyStep

variable {s t : State}

/-- All a busy step does to the control registers: the core's operations move them by `Control.next`. -/
theorem step_control (hbusy : s.ph.busy = true) (h : step s = .next t) : t.control = s.control.next := by
  cases hph : s.ph <;> simp only [step_by_phase, hph] at h
  case idle | done => simp [hph, Phase.busy, Phase.status] at hbusy
  case sInit => simp [execInit_next.mp h, State.control, Control.next, hph]
  case sPad => obtain ⟨m, -, rfl⟩ := execPad_next.mp h; simp [State.control, Control.next, hph]
  case sDecode => obtain ⟨x, -, rfl⟩ := execDecode_next.mp h; simp [State.control, Control.next, hph]
  case sSnap => simp [execSnap_next.mp h, State.control, Control.next, hph]
  case sRound =>
    cases h
    rw [State.roundOp_spec]
    by_cases hmore : s.idx.toNat < 63 <;> simp [State.control, Control.next, hph, hmore]
  case sFold =>
    rcases execFold_cases s with ⟨hmore, e⟩ | ⟨hlast, e⟩ <;> rw [e] at h <;> cases h
    · simp [State.control, Control.next, hph, hmore]
    · simp [State.control, Control.next, hph, hlast]
  case sEncode => simp [execEncode_next.mp h, State.control, Control.next, hph]

/-- The sequencer's part of it, with the row of the table that applies. -/
theorem step_sequencer {ph : Phase} {c : Control} (h : step s = .next t) (hph : s.ph = ph) (hbusy : ph.busy = true)
    (hrow : Control.next ⟨ph, s.j, s.idx, s.n, s.l⟩ = c) : t.ph = c.ph ∧ t.j = c.j ∧ t.idx = c.idx := by
  subst hph
  have hc : t.control = c := (step_control hbusy h).trans hrow
  exact ⟨congrArg Control.ph hc, congrArg Control.j hc, congrArg Control.idx hc⟩

end BusyStep

/-- Settles O38: the codes phase by phase, and one row of `Control.next` a clause. -/
theorem sequencerTransitions : Obligations.SequencerTransitions := by
  refine ⟨fun ph idx => ?_, fun s t h => ⟨fun hph => step_sequencer h hph rfl rfl,
    fun hph => step_sequencer h hph rfl rfl, fun hph => step_sequencer h hph rfl rfl, fun hph => ?_,
    fun hph hi => ?_, fun hph hi => ?_, fun hph hmore => step_sequencer h hph rfl (if_pos hmore),
    fun hph hlast => step_sequencer h hph rfl (if_neg hlast), fun hph => step_sequencer h hph rfl rfl⟩⟩
  · cases ph
    case sRound => rw [opcode, BitVec.ofNat_toNat]
    all_goals rfl
  · obtain ⟨hph', hj', hidx'⟩ := step_sequencer h hph rfl rfl
    exact ⟨hph', hj', by rw [State.opIndex, hidx']; rfl⟩
  · have hmore : s.idx.toNat < 63 := by rw [State.opIndex] at hi; omega
    obtain ⟨hph', hj', hidx'⟩ := step_sequencer h hph rfl (if_pos hmore)
    have hsucc : (s.idx + 1).toNat = s.idx.toNat + 1 := by bv_omega
    exact ⟨hph', hj', by rw [State.opIndex, hidx', hsucc, State.opIndex]⟩
  · have hlast : ¬s.idx.toNat < 63 := by rw [State.opIndex] at hi; omega
    exact step_sequencer h hph rfl (if_neg hlast)

/-- Settles O39: `Control.next` is a function of the five registers, so states that agree on them move alike. -/
theorem controlIgnoresData : Obligations.ControlIgnoresData := by
  intro s s' t t' hbusy h h' hph hj hidx hn hl
  have hagree : s'.control = s.control := by simp [State.control, hph, hj, hidx, hn, hl]
  have hnext : t'.control = t.control := by
    rw [step_control (hph ▸ hbusy) h', step_control hbusy h, hagree]
  simpa [State.control] using hnext

end Sys2Proof.Machine
end

section
/-! ## Proofs: the host transactions START and READ (45_sequencer_and_host.md R180 to R182) -/

namespace Sys2Proof.Machine

/-! ### START -/

section Start

variable {s : State} {m : List Byte} {rest : List Transaction}

/-- A message of at most `MAX_N` bytes is admitted; there is no bound where `MAX_N` is not set (R180). -/
theorem State.admits_iff {n : Nat} : s.admits n = true ↔ ∀ k, s.maxN = some k → n ≤ k := by
  unfold State.admits
  cases s.maxN <;> simp

/-- A START that is enabled takes place (R180). -/
theorem step_start (hph : s.ph = .idle ∨ s.ph = .done) (hmaxN : ∀ k, s.maxN = some k → m.length ≤ k)
    (hp : s.pending = .start m :: rest) : step s = .next ((s.start m).setPending rest) := by
  have hwaits := Phase.busy_eq_false.mpr hph
  have henabled : s.startEnabled m = true := by simp [State.startEnabled, hwaits, State.admits_iff.mpr hmaxN]
  rw [step_of_not_busy hwaits, State.hostMove_start hp, if_pos henabled]

/-- A START longer than `MAX_N` does not (R181). -/
theorem step_start_too_long {k : Nat} (hph : s.ph = .idle ∨ s.ph = .done) (hmaxN : s.maxN = some k)
    (hlong : k < m.length) (hp : s.pending = .start m :: rest) : step s = .next s := by
  have hrefused : ¬s.startEnabled m = true := by
    rw [State.startEnabled, Bool.and_eq_true, State.admits_iff]
    exact fun h => absurd (h.2 k hmaxN) (Nat.not_le.mpr hlong)
  rw [step_of_not_busy (Phase.busy_eq_false.mpr hph), State.hostMove_start hp, if_neg hrefused]

end Start

/-- Settles O42: START leaves in `MSG` exactly the message's bytes. -/
theorem startTakesTheMessage : Obligations.StartTakesTheMessage := by
  intro s m rest hph hmaxN hp
  refine ⟨_, step_start hph hmaxN hp, rfl, rfl, fun a ha => ?_, rfl⟩
  exact State.readByte_of_ofBytes (sp := .msg) rfl rfl (List.getElem?_eq_getElem ha)

/-! ### Busy steps and the host's lists -/

section BusyStep

variable {s t : State}

/-- A busy step does the same to the core's state whatever the host's two lists are, and leaves them (R181,
R182). -/
theorem step_with_host (hbusy : s.ph.busy = true) (h : step s = .next t) (p : List Transaction)
    (d : List (List Byte)) :
    step { s with pending := p, delivered := d } = .next { t with pending := p, delivered := d } := by
  cases hph : s.ph <;> simp only [step_by_phase, hph] at h ⊢
  case idle | done => simp [hph, Phase.busy, Phase.status] at hbusy
  case sInit => obtain rfl := execInit_next.mp h; exact execInit_next.mpr rfl
  case sPad =>
    obtain ⟨m, hm, rfl⟩ := execPad_next.mp h
    refine execPad_next.mpr ⟨m, ?_, rfl⟩
    rw [← hm]
    exact State.readBytes_congr fun _ _ => State.readByte_congr rfl rfl _
  case sDecode =>
    obtain ⟨x, hx, rfl⟩ := execDecode_next.mp h
    refine execDecode_next.mpr ⟨x, ?_, rfl⟩
    rw [← hx]
    exact State.readWords_congr fun _ _ => State.readByte_congr rfl rfl _
  case sSnap => obtain rfl := execSnap_next.mp h; exact execSnap_next.mpr rfl
  case sRound => cases h; simp only [State.roundOp_spec, hph]
  case sFold =>
    rcases execFold_cases s with ⟨hmore, e⟩ | ⟨hlast, e⟩ <;> cases e.symm.trans h <;>
      rcases execFold_cases { s with ph := .sFold, pending := p, delivered := d } with ⟨hmore', e'⟩ | ⟨hlast', e'⟩
    exacts [e', absurd hmore hlast', absurd hmore' hlast, e']
  case sEncode => obtain rfl := execEncode_next.mp h; exact execEncode_next.mpr rfl

/-- So the lists are after it what they were. -/
theorem step_keeps_host (hbusy : s.ph.busy = true) (h : step s = .next t) :
    t.pending = s.pending ∧ t.delivered = s.delivered := by
  have hsame : t = { t with pending := s.pending, delivered := s.delivered } :=
    Host.Outcome.next.inj (h.symm.trans (step_with_host hbusy h s.pending s.delivered))
  have hp := congrArg State.pending hsame
  have hd := congrArg State.delivered hsame
  exact ⟨hp, hd⟩

/-- Another list of transactions to come makes no other difference (R181). -/
theorem step_with_pending (hbusy : s.ph.busy = true) (h : step s = .next t) (p : List Transaction) :
    step { s with pending := p } = .next { t with pending := p } := by
  have hd := (step_keeps_host hbusy h).2
  rw [step_with_host hbusy h p s.delivered, ← hd]

end BusyStep

/-- Settles O43: no busy operation reads or writes the host's transactions, and START tests its length. -/
theorem startIsNotEnabled : Obligations.StartIsNotEnabled :=
  ⟨fun _ _ p hbusy h => ⟨(step_keeps_host hbusy h).1, step_with_pending hbusy h p⟩,
    fun _ _ _ _ => step_start_too_long⟩

/-! ### READ -/

section Read

variable {s t : State} {rest : List Transaction}

/-- The digest a READ returns depends on `DG` only. -/
theorem State.readDigest_congr (hdg : t.dg = s.dg) : t.readDigest = s.readDigest :=
  State.readBytes_congr fun _ _ => State.readByte_congr (s := s) (t := t) (sp := .dg) rfl hdg _

/-- All a READ in `DONE` can answer with a next state: the digest is recorded and the core is as it was (R182). -/
theorem step_read (hph : s.ph = .done) (hp : s.pending = .read :: rest) :
    step s = .next t ↔
      ∃ bs, s.readDigest = .ok bs ∧ t = { s with pending := rest, delivered := s.delivered ++ [bs] } := by
  rw [step_of_not_busy (Phase.busy_eq_false.mpr (.inr hph)), State.hostMove_read hp, if_pos hph]
  exact andThen_next

end Read

/-- Settles O44: a READ reads `DG` and leaves it, so the next one returns the same. -/
theorem readReturnsTheDigest : Obligations.ReadReturnsTheDigest := by
  refine ⟨fun s rest hph hdg hp => ?_, fun s t u rest hph hp ht hu => ?_, fun s rest hph hp => ?_,
    fun s t hbusy h => (step_keeps_host hbusy h).2⟩
  · obtain ⟨bs, hbs⟩ := State.readBytes_exists (s := s) (sp := .dg) (a := 0) (k := 16)
      fun i hi => hdg (0 + i) (by omega) (by omega)
    obtain ⟨hlen, hread⟩ := State.readBytes_ok.mp hbs
    exact ⟨bs, _, (step_read hph hp).mpr ⟨bs, hbs, rfl⟩, rfl, hlen, fun a ha => by simpa using hread a ha⟩
  · obtain ⟨bs, hbs, ht⟩ := (step_read hph hp).mp ht
    obtain ⟨bs', hbs', hu⟩ := (step_read (s := t) (by rw [ht]; exact hph) (by rw [ht])).mp hu
    have hsame : bs' = bs := by
      rw [State.readDigest_congr (s := s) (by rw [ht]), hbs] at hbs'
      exact (Except.ok.inj hbs').symm
    exact ⟨bs, by rw [ht], by simp [hu, ht, hsame]⟩
  · have hwaits : s.ph.busy = false := Phase.busy_eq_false.mpr (.inl hph)
    rw [step_of_not_busy hwaits, State.hostMove_read hp, if_neg (by simp [hph])]

end Sys2Proof.Machine
end

section
/-! ## Proofs: runs (45_sequencer_and_host.md R187, R190, R191, R195)

A run from `S_INIT` is followed as one list of codes: each operation or turn of the chunk loop adds its codes and
gives the next state in full, so the count, the codes and the digest are read off one statement. -/

namespace Sys2Proof.Machine

/-! ### A run with the codes it executes -/

/-- From `s` the core executes the operations of these codes, one a step, and is then in `t`. -/
structure Executes (cs : List OpCode) (s t : State) : Prop where
  run_eq : run cs.length s = .next t
  code_at : ∀ k (hk : k < cs.length), ∃ u, run k s = .next u ∧ opcode u.ph u.idx = some cs[k]

section Executes

variable {s t u : State} {c : OpCode} {cs cs' : List OpCode}

/-- One operation. -/
theorem Executes.single (hc : opcode s.ph s.idx = some c) (h : step s = .next t) : Executes [c] s t := by
  refine ⟨run_succ h, fun k hk => ?_⟩
  obtain rfl : k = 0 := by simpa using hk
  exact ⟨s, rfl, hc⟩

/-- One run after another. -/
theorem Executes.append (h : Executes cs s t) (h' : Executes cs' t u) : Executes (cs ++ cs') s u := by
  refine ⟨by rw [List.length_append, run_add h.run_eq, h'.run_eq], fun k hk => ?_⟩
  rcases Nat.lt_or_ge k cs.length with hlt | hge
  · rw [List.getElem_append_left hlt]
    exact h.code_at k hlt
  · obtain ⟨v, hv, hcode⟩ := h'.code_at (k - cs.length) (by rw [List.length_append] at hk; omega)
    refine ⟨v, ?_, by rw [List.getElem_append_right hge, hcode]⟩
    rw [← hv, ← run_add h.run_eq, Nat.add_sub_cancel' hge]

/-- The first operation of a run. -/
theorem Executes.uncons (h : Executes (c :: cs) s t) :
    opcode s.ph s.idx = some c ∧ ∃ u, step s = .next u ∧ Executes cs u t := by
  obtain ⟨v, hv, hcode⟩ := h.code_at 0 (by simp)
  cases hv
  refine ⟨hcode, ?_⟩
  have hrun := h.run_eq
  cases hs : step s with
  | next u =>
    refine ⟨u, rfl, (run_succ hs).symm.trans hrun, fun k hk => ?_⟩
    rw [← run_succ hs]
    exact h.code_at (k + 1) (by simpa using hk)
  | fault e => simp [run, hs] at hrun
  | refused r => simp [run, hs] at hrun

/-- The trace of such a run is its codes. -/
theorem Executes.trace_eq (h : Executes cs s t) : trace cs.length s = cs := by
  induction cs generalizing s with
  | nil => rfl
  | cons c cs ih =>
    obtain ⟨hcode, u, hs, htail⟩ := h.uncons
    rw [List.length_cons, trace_succ hs, hcode, ih htail]
    rfl

/-- Before each of its operations the core is in a busy phase. -/
theorem Executes.busy (h : Executes cs s t) {k : Nat} (hk : k < cs.length) :
    ∃ u, run k s = .next u ∧ u.ph.busy = true := by
  obtain ⟨u, hu, hcode⟩ := h.code_at k hk
  exact ⟨u, hu, (exists_opcode_iff_busy _ _).mp ⟨_, hcode⟩⟩

end Executes

/-! ### One turn of the chunk loop (R90, R165) -/

/-- The codes of `ROUNDS` are those the sequencer selects for `I = 1 .. 64` (30_encoding.md R81). -/
theorem roundsExpansion_code_getElem {k : Nat} (hk : k < (roundsExpansion.map Instr.code).length) :
    (roundsExpansion.map Instr.code)[k] = (BitVec.ofNat 6 k).setWidth 7 := by
  have hlt : k < 64 := by simpa using hk
  have hcode : (roundsExpansion.map fun i => i.code.toNat)[k]'(by simpa using hk) = k := by
    simp only [roundsExpansion_codes, List.getElem_range]
  rw [List.getElem_map] at hcode ⊢
  apply BitVec.eq_of_toNat_eq
  rw [hcode, BitVec.toNat_setWidth, BitVec.toNat_ofNat]
  omega

/-- `ROUNDS` from `I = 1` (R149). -/
theorem executes_rounds {s : State} (hph : s.ph = .sRound) (hidx : s.idx = 0) :
    Executes (roundsExpansion.map Instr.code) s { s with w := compress s.w s.x, idx := 63, ph := .sFold } := by
  have hlen : (roundsExpansion.map Instr.code).length = 64 := by simp
  refine ⟨hlen ▸ run_compress hph hidx, fun k hk => ⟨_, run_rounds hph hidx (hlen ▸ hk), ?_⟩⟩
  rw [roundsExpansion_code_getElem, hph]
  rfl

/-- The codes of `COMPRESS` from a chunk that reads as `x`: `FOLD` adds `R(h, x)` to `H` and moves the sequencer. -/
theorem executes_compress {s : State} {x : Vector Word 16} (hph : s.ph = .sDecode)
    (hx : s.readWords .pb (64 * s.j) 16 = .ok x) :
    Executes (compressExpansion.map Instr.code) s
      ({ s with h := addWords s.h (compress s.h x), w := compress s.h x, x := x, idx := 63, ph := .sFold } :
        State).nextChunk := by
  have hdecode : Executes [Instr.decode.code] s { s with x := x, ph := .sSnap } := by
    refine Executes.single (by rw [hph]; rfl) ?_
    rw [step_by_phase, hph]
    exact execDecode_next.mpr ⟨x, hx, rfl⟩
  have hsnap : Executes [Instr.snap.code] { s with x := x, ph := .sSnap }
      { s with x := x, w := s.h, idx := 0, ph := .sRound } :=
    Executes.single rfl ((step_by_phase _).trans (execSnap_next.mpr rfl))
  rw [compressExpansion, List.map_append, List.map_append]
  exact ((hdecode.append hsnap).append (executes_rounds rfl rfl)).append (Executes.single rfl (step_by_phase _))

/-! ### The chunks of the padded message (R102, R120) -/

/-- The four ranges of R102 make up the padded message. -/
theorem padBytes_getElem?_eq_padByte (m : List Byte) {a : Nat} (ha : a < padLen m.length) :
    (padBytes m)[a]? = some (padByte m a) := by
  unfold padByte
  split_ifs with hmsg hmarker hzero
  · rw [padBytes_message m a hmsg, List.getElem?_eq_getElem hmsg, List.getD_eq_getElem _ _ hmsg]
  · rw [hmarker, padBytes_marker]
  · exact padBytes_zero m a (by omega) hzero
  · have haddr : padLen m.length - 8 + (a - (padLen m.length - 8)) = a := by omega
    have hbyte := padBytes_lengthField m (a - (padLen m.length - 8)) (by omega)
    rwa [haddr] at hbyte

/-- Where `PB` holds the padded message, chunk `J` reads as its words. -/
theorem readWords_chunkWords {s : State} {m : List Byte} (hl : s.l = padLen m.length)
    (hpb : s.pb = Memory.ofBytes 0 (padBytes m)) (hj : s.j < numChunks m.length) :
    s.readWords .pb (64 * s.j) 16 = .ok (chunkWords m s.j) := by
  have hbyte {a : Nat} (ha : a < 64 * s.j + 64) : s.readByte .pb a = .ok (padByte m a) := by
    have hlt : a < padLen m.length := by rw [← padLen_div] at hj; omega
    exact State.readByte_of_ofBytes (s := s) (sp := .pb) (by rw [padBytes_length]; exact hl) hpb
      (padBytes_getElem?_eq_padByte m hlt)
  refine State.readWords_ok.mpr fun i hi => State.readWord_ok.mpr ⟨_, _, _, _, hbyte (by omega), hbyte (by omega),
    hbyte (by omega), hbyte (by omega), ?_⟩
  rw [chunkWords, Vector.getElem_ofFn, chunkWord]

/-! ### The whole schedule (R190, R195) -/

/-- What `INIT` and `PAD` leave for a message `m`. -/
def State.padded (s : State) (m : List Byte) : State :=
  { s with h := iv, pb := Memory.ofBytes 0 (padBytes m), l := padLen m.length, j := 0, ph := .sDecode }

/-- What chunk `k` of `m` leaves once `FOLD` has added it, before the sequencer moves. -/
def State.folded (s : State) (m : List Byte) (k : Nat) : State :=
  { s with
    h := hashAfter m (k + 1)
    w := compress (hashAfter m k) (chunkWords m k)
    x := chunkWords m k
    j := k
    idx := 63
    ph := .sFold }

/-- The index of the last chunk, `NCH − 1` (R101). -/
def lastChunk (m : List Byte) : Nat :=
  (m.length + 8) / 64

theorem numChunks_eq_lastChunk (m : List Byte) : numChunks m.length = lastChunk m + 1 := rfl

/-- The end of the run of a message `m` from `s`: the registers of R187, and in `DG` the digest of R195. -/
def State.hashed (s : State) (m : List Byte) : State :=
  { (s.padded m).folded m (lastChunk m) with dg := s.dg.setBytes 0 (digest m), ph := .done }

section Schedule

variable {s : State} {m : List Byte}

/-- `INIT` and `PAD`, with the message in `MSG`. -/
theorem executes_init_pad (hph : s.ph = .sInit) (hm : s.readBytes .msg 0 s.n = .ok m) :
    Executes [Instr.init.code, Instr.pad.code] s (s.padded m) := by
  have hinit : Executes [Instr.init.code] s { s with h := iv, ph := .sPad } := by
    refine Executes.single (by rw [hph]; rfl) ?_
    rw [step_by_phase, hph]
    exact execInit_next.mpr rfl
  refine hinit.append (Executes.single rfl ?_)
  rw [step_by_phase, State.padded, (State.readBytes_ok.mp hm).1]
  refine execPad_next.mpr ⟨m, ?_, rfl⟩
  rw [← hm]
  exact State.readBytes_congr fun _ _ => State.readByte_congr rfl rfl _

/-- One turn, from the state in which chunk `J` is to be decoded (R165). -/
theorem executes_turn (hph : s.ph = .sDecode) (hh : s.h = hashAfter m s.j) (hl : s.l = padLen m.length)
    (hpb : s.pb = Memory.ofBytes 0 (padBytes m)) (hj : s.j < numChunks m.length) :
    Executes (compressExpansion.map Instr.code) s (s.folded m s.j).nextChunk := by
  have hturn := executes_compress hph (readWords_chunkWords hl hpb hj)
  rw [hh] at hturn
  exact hturn

/-- The loop goes on while there is a chunk left (R163). -/
theorem State.nextChunk_folded (s : State) (m : List Byte) (k : Nat) :
    ((s.padded m).folded m k).nextChunk =
      if k + 1 < numChunks m.length then { (s.padded m).folded m k with j := k + 1, ph := .sDecode }
      else { (s.padded m).folded m k with ph := .sEncode } := by
  rw [← padLen_div]
  rfl

/-- The turns for chunks `0 .. k`: `H` begins each as `h_j` (R165, R195). -/
theorem executes_chunks {k : Nat} (hk : k < numChunks m.length) :
    Executes (List.replicate (k + 1) (compressExpansion.map Instr.code)).flatten (s.padded m)
      ((s.padded m).folded m k).nextChunk := by
  induction k with
  | zero =>
    rw [List.replicate_one, List.flatten_singleton]
    exact executes_turn rfl rfl rfl rfl hk
  | succ k ih =>
    have hbefore := ih (by omega)
    rw [State.nextChunk_folded, if_pos hk] at hbefore
    rw [List.replicate_succ', List.flatten_append, List.flatten_singleton]
    exact hbefore.append (executes_turn rfl rfl rfl rfl hk)

/-- `ENCODE` after the last chunk leads to the end of the run. -/
theorem execEncode_hashed (s : State) (m : List Byte) :
    execEncode { (s.padded m).folded m (lastChunk m) with ph := .sEncode } = .next (s.hashed m) := by
  rw [execEncode_next, State.hashed, digest, numChunks_eq_lastChunk]
  rfl

/-- READ returns the digest there (R195). -/
theorem State.readDigest_hashed (s : State) (m : List Byte) : (s.hashed m).readDigest = .ok (digest m) := by
  rw [State.readDigest, execEncode_readBytes (execEncode_hashed s m), digest, numChunks_eq_lastChunk]
  rfl

/-- The schedule of the message in `MSG`, from `S_INIT` to the end of the run. -/
theorem executes_schedule (hph : s.ph = .sInit) (hm : s.readBytes .msg 0 s.n = .ok m) :
    Executes ((schedule s.n).map Instr.code) s (s.hashed m) := by
  have hchunks := executes_chunks (s := s) (m := m) (Nat.lt_succ_self (lastChunk m))
  have hlast : ¬lastChunk m + 1 < numChunks m.length := Nat.lt_irrefl _
  rw [State.nextChunk_folded, if_neg hlast, ← numChunks_eq_lastChunk] at hchunks
  have hencode : Executes [Instr.encode.code] { (s.padded m).folded m (lastChunk m) with ph := .sEncode }
      (s.hashed m) := Executes.single rfl ((step_by_phase _).trans (execEncode_hashed s m))
  rw [← (State.readBytes_ok.mp hm).1, schedule, hashExpansion, List.map_append, List.map_append, List.map_flatten,
    List.map_replicate]
  exact ((executes_init_pad hph hm).append hchunks).append hencode

/-- The message is there to be read under the invariant (R222). -/
theorem State.exists_message_of_inv (hinv : s.Inv) (hph : s.ph = .sInit) :
    ∃ m, s.readBytes .msg 0 s.n = .ok m := by
  obtain ⟨-, hclause⟩ := hinv
  rw [hph] at hclause
  exact State.readBytes_exists fun i hi => hclause (0 + i) (Nat.zero_le _) (by omega)

end Schedule

/-! ### The run from `S_INIT` (R190, R191) -/

theorem schedule_codes_length (n : Nat) : ((schedule n).map Instr.code).length = runLength n := by
  rw [List.length_map, schedule, hashExpansion_length, runLength]

/-- The run under the invariant executes the schedule and ends in `DONE`. -/
theorem executes_schedule_of_inv {s : State} (hinv : s.Inv) (hph : s.ph = .sInit) :
    ∃ t, Executes ((schedule s.n).map Instr.code) s t ∧ t.ph = .done := by
  obtain ⟨m, hm⟩ := State.exists_message_of_inv hinv hph
  exact ⟨_, executes_schedule hph hm, rfl⟩

/-- `64·NCH` of the schedule's codes are round operations', those below 0x40 (R191). -/
theorem schedule_rounds_count (n : Nat) :
    (((schedule n).map Instr.code).filter fun c => decide (c.toNat < 0x40)).length = 64 * numChunks n := by
  have hturn : ([0x42, 0x43] ++ List.range 64 ++ [0x44]).countP (fun c => decide (c < 0x40)) = 64 := by decide
  calc (((schedule n).map Instr.code).filter fun c => decide (c.toNat < 0x40)).length
      = ((schedule n).map fun i => i.code.toNat).countP fun c => decide (c < 0x40) := by
        rw [← List.countP_eq_length_filter, List.countP_map, List.countP_map]
        rfl
    _ = 64 * numChunks n := by
        rw [schedule, hashExpansion_codes, List.countP_append, List.countP_append, List.countP_flatten,
          List.map_replicate, hturn, List.sum_replicate_nat]
        simp [Nat.mul_comm]

/-- Settles O54: the run executes the schedule's codes, one a step. -/
theorem runReachesDone : Obligations.RunReachesDone := by
  refine ⟨fun s hinv hph => ?_, fun n => ?_⟩
  · obtain ⟨t, h, hdone⟩ := executes_schedule_of_inv hinv hph
    have hlen := schedule_codes_length s.n
    refine ⟨⟨t, ?_, hdone⟩, fun k hk => h.busy (hlen ▸ hk), ?_⟩
    · rw [← runLength, ← hlen, h.run_eq]
    · rw [← hlen, h.trace_eq, schedule_rounds_count]
  · unfold runLength numChunks
    omega

/-- Settles O55: the trace of the run is the schedule's codes. -/
theorem runFollowsTheSchedule : Obligations.RunFollowsTheSchedule := by
  intro s hinv hph
  obtain ⟨t, h, -⟩ := executes_schedule_of_inv hinv hph
  have htrace : trace (runLength s.n) s = (schedule s.n).map Instr.code := by
    rw [← schedule_codes_length, h.trace_eq]
  refine ⟨htrace, ?_⟩
  rw [htrace, List.map_map]
  exact hashExpansion_codes (numChunks s.n)

/-! ### The run from a START (R187, R195) -/

/-- A START and the run: the end of the run of its message (R195). -/
theorem run_start {s : State} {m : List Byte} {rest : List Transaction} (hph : s.ph = .idle ∨ s.ph = .done)
    (hmaxN : ∀ k, s.maxN = some k → m.length ≤ k) (hp : s.pending = .start m :: rest) :
    run (1 + runLength m.length) s = .next (((s.start m).setPending rest).hashed m) := by
  have hm : ((s.start m).setPending rest).readBytes .msg 0 m.length = .ok m := by
    refine State.readBytes_ok.mpr ⟨rfl, fun i hi => ?_⟩
    rw [Nat.zero_add]
    exact State.readByte_of_ofBytes (sp := .msg) rfl rfl (List.getElem?_eq_getElem hi)
  have hrun := (executes_schedule (s := (s.start m).setPending rest) rfl hm).run_eq
  rw [schedule_codes_length] at hrun
  rw [Nat.add_comm, run_succ (step_start hph hmaxN hp)]
  exact hrun

/-- Settles O57: the registers of the end of the run. -/
theorem endOfRunRegisters : Obligations.EndOfRunRegisters := by
  intro s m rest hph hmaxN hp
  have hj : lastChunk m = padLen m.length / 64 - 1 := by rw [padLen_div]; rfl
  exact ⟨_, run_start hph hmaxN hp, rfl, State.readDigest_hashed _ m, rfl, rfl, rfl, hj, rfl⟩

/-- Settles O56: at the end of the run READ is enabled and returns what `DG` holds. -/
theorem readReturnsDigestOfMessage : Obligations.ReadReturnsDigestOfMessage := by
  intro s m rest hph hmaxN hp
  have hread := (step_read (s := ((s.start m).setPending (.read :: rest)).hashed m) rfl rfl).mpr
    ⟨_, State.readDigest_hashed _ m, rfl⟩
  exact ⟨_, (run_append_step (run_start hph hmaxN hp)).trans hread, rfl, rfl, rfl⟩

end Sys2Proof.Machine
end

section
/-! ## Proofs: waiting, and several cores (60_exceptions.md R211, R213) -/

namespace Sys2Proof.Machine

/-- Settles O45: the phases that are not busy are the host's, and a host with nothing to come moves nothing. -/
theorem waitingKeepsAllState : Obligations.WaitingKeepsAllState := by
  refine ⟨fun s => ?_, fun s hph hp => ?_⟩
  · cases hbusy : s.ph.busy with
    | false => exact .inl (Phase.busy_eq_false.mp hbusy)
    | true => exact .inr rfl
  · rw [step_of_not_busy (Phase.busy_eq_false.mpr hph), State.hostMove_nil hp]

/-- What a step of core `k` can do: the core's own state, where the system has such a core, becomes the next one,
and that entry of the list is all that is written. Where there is no core `k` there is no entry to write, so the
system is left as it is. -/
theorem Cores.stepAt_next {k : Nat} {cs cs' : Cores} :
    Cores.stepAt k cs = .next cs' ↔
      ∃ t, (∀ s, cs[k]? = some s → step s = .next t) ∧ cs' = cs.set k t := by
  unfold Cores.stepAt
  cases hcore : cs[k]? with
  | none =>
    have hset (t : State) : cs.set k t = cs := List.set_eq_of_length_le (List.getElem?_eq_none_iff.mp hcore)
    have hany : Nonempty State := ⟨State.reset⟩
    simp [hset, eq_comm]
  | some s => cases hstep : step s <;> simp [hstep, eq_comm]

/-- A step of core `l` finds in a system what it finds in it after another core's entry is written. -/
theorem Cores.stepAt_set_next {k l : Nat} {cs cs' : Cores} {t : State} (hne : k ≠ l) :
    Cores.stepAt l (cs.set k t) = .next cs' ↔
      ∃ u, (∀ s, cs[l]? = some s → step s = .next u) ∧ cs' = (cs.set k t).set l u := by
  rw [Cores.stepAt_next, List.getElem?_set_ne hne]

/-- Settles O58: a step writes one entry of the list, and writes to two different entries commute. -/
theorem coresAreIndependent : Obligations.CoresAreIndependent := by
  refine ⟨fun k cs cs' h => ?_, fun k l cs a ab hne hk hl => ?_⟩
  · obtain ⟨t, -, rfl⟩ := Cores.stepAt_next.mp h
    exact ⟨List.length_set, fun i hi => List.getElem?_set_ne hi.symm⟩
  · obtain ⟨t, hstepk, rfl⟩ := Cores.stepAt_next.mp hk
    obtain ⟨u, hstepl, rfl⟩ := (Cores.stepAt_set_next hne).mp hl
    exact ⟨cs.set l u, Cores.stepAt_next.mpr ⟨u, hstepl, rfl⟩,
      (Cores.stepAt_set_next hne.symm).mpr ⟨t, hstepk, List.set_comm t u hne⟩⟩

end Sys2Proof.Machine
end

section
/-! ## Proofs: runs from reset, and reset in any state (70_reset_and_hazards.md R220, R222, R224) -/

namespace Sys2Proof.Machine

/-- The invariant speaks of the core's own state only, not of the instance's parameter or the host's side. -/
theorem State.inv_with_host_side {s : State} (maxN : Option Nat) (pending : List Transaction)
    (delivered : List (List Byte)) :
    ({ s with maxN := maxN, pending := pending, delivered := delivered } : State).Inv ↔ s.Inv :=
  Iff.rfl

/-- The state after reset meets the invariant (R220). -/
theorem State.reset_inv : State.reset.Inv := by
  obtain ⟨-, -, -, hinv⟩ := resetState
  exact hinv

/-- A run from a state of the invariant goes on for any number of steps, and ends in such a state (R222). -/
theorem run_keeps_inv {s : State} (hinv : s.Inv) (k : Nat) : ∃ t, run k s = .next t ∧ t.Inv := by
  induction k with
  | zero => exact ⟨s, run_zero s, hinv⟩
  | succ k ih =>
    obtain ⟨t, hrun, ht⟩ := ih
    obtain ⟨u, hstep, hu⟩ := stepKeepsInvariantAndNeverStops t ht
    exact ⟨u, (run_append_step hrun).trans hstep, hu⟩

/-- Settles O53: reset meets the invariant whatever the host is to send, and every step keeps it. -/
theorem noRunFromResetStops : Obligations.NoRunFromResetStops := fun maxN transactions k =>
  run_keeps_inv ((State.inv_with_host_side maxN transactions State.reset.delivered).mpr State.reset_inv) k

/-- Settles O47: the reset input writes every register and memory as reset does, and keeps what the invariant does
not speak of. -/
theorem resetAbandonsTheRun : Obligations.ResetAbandonsTheRun := fun s =>
  ⟨rfl, (State.inv_with_host_side s.maxN s.pending s.delivered).mpr State.reset_inv, rfl⟩

end Sys2Proof.Machine
end
